-- ==== Sys2Proof/Word.lean ====
section
/-! DEFINITION. The plain data words of the part: bytes, 32-bit words, station addresses, and the numbers that name
routes, ingest lanes and delivery lanes. Only types stand here; every operation on them is in a file under Machine/. -/

namespace Sys2Proof

/-- One byte of a frame or of retention memory. -/
abbrev Byte := BitVec 8

/-- A 32-bit word: a bucket, a check value, a sequence, an epoch, a life, a table word. -/
abbrev Word := BitVec 32

/-- A 48-bit Ethernet station address, first byte on the wire most significant. -/
abbrev Addr := BitVec 48

/-- A 64-bit key digest. -/
abbrev Digest := BitVec 64

/-- A 64-bit version stamp; a larger stamp is a newer version. -/
abbrev Stamp := BitVec 64

/-- A route number, 0 to 7 (the conventions of 00_scope.md). -/
abbrev RouteId := Fin 8

/-- An ingest lane number, 0 to 63. -/
abbrev LaneId := Fin 64

/-- A delivery lane number, 0 to 15. -/
abbrev DeliveryLaneId := Fin 16

end Sys2Proof
end

