-- ==== Sys2Proof/Syntax.lean ====
section
/-! DEFINITION. The commands of the part: one constructor of `Instr` per row of spec/opcode_table.json.
A row that a frame brings about carries the whole frame as it arrives; a row that belongs to one port, route or delivery
lane carries its number; a management row carries nothing, because its operands stand in the control parcel at the head
of the parcel queue (R177). -/

namespace Sys2Proof

/-- The two Ethernet ports. -/
inductive Port where
  | cluster
  | longhaul
  deriving DecidableEq, Repr

/-- An Ethernet frame that passed its frame check: the 14-byte header's three fields, and the payload after it
(12_frame_parcel_and_entry_layouts.md). -/
structure Frame where
  dst : Addr
  src : Addr
  ftype : BitVec 16
  payload : List Byte
  deriving DecidableEq, Repr

/-- The commands and events the part takes, one constructor per row of spec/opcode_table.json, in the table's order. -/
inductive Instr where
  /-- POWER_ON (R184) -/
  | powerOn
  /-- LINK_DOWN (R6) -/
  | linkDown (p : Port)
  /-- LINK_UP (R6) -/
  | linkUp (p : Port)
  /-- PASS_THROUGH (R3): the frame arrives on port `p` -/
  | passThrough (p : Port) (f : Frame)
  /-- FRAME_DROP_FOREIGN (R2): the frame arrives on port `p` -/
  | frameDropForeign (p : Port) (f : Frame)
  /-- OPEN (R10) -/
  | openObject (f : Frame)
  /-- BODY (R14) -/
  | body (f : Frame)
  /-- SEAL (R17) -/
  | seal (f : Frame)
  /-- ERASE (R12) -/
  | erase (f : Frame)
  /-- DROP (R18) -/
  | drop (f : Frame)
  /-- CLUSTER_TRANSMIT (R5) -/
  | clusterTransmit
  /-- LONGHAUL_GRANT (R106) -/
  | longhaulGrant
  /-- TRANSMIT_COMPLETE (R110), reported by the MAC of port `p` -/
  | transmitComplete (p : Port)
  /-- SEGMENT_PLACE (R89) -/
  | segmentPlace (r : RouteId)
  /-- SPAN_HOLD_EXPIRY (R94) -/
  | spanHoldExpiry (r : RouteId)
  /-- PACING_INTERVAL (R127) -/
  | pacingInterval
  /-- RESEND_TIMEOUT (R121) -/
  | resendTimeout (r : RouteId)
  /-- PROBE_TIMER (R144) -/
  | probeTimer (r : RouteId)
  /-- RECEIPT_DELAY_EXPIRY (R170) -/
  | receiptDelayExpiry (r : RouteId)
  /-- DELIVERY_TIMEOUT (R174) -/
  | deliveryTimeout (l : DeliveryLaneId)
  /-- EPOCH_TICK (R154) -/
  | epochTick
  /-- RECEIPT (R113) -/
  | receipt (f : Frame)
  /-- PROBE (R146) -/
  | probe (f : Frame)
  /-- PROBE_REPLY (R147) -/
  | probeReply (f : Frame)
  /-- DATA_SPAN (R160) -/
  | dataSpan (f : Frame)
  /-- MARKER_SPAN (R168) -/
  | markerSpan (f : Frame)
  /-- STORE_ANSWER (R173) -/
  | storeAnswer (f : Frame)
  /-- DELIVERY_FRAME_PLACE (R172) -/
  | deliveryFramePlace (l : DeliveryLaneId)
  /-- CONTROL_PARCEL (R177) -/
  | controlParcel (f : Frame)
  /-- BAD_COMMAND (R177): the head parcel, which cannot be read, is answered -/
  | badCommand
  /-- SELECT (R180): the head parcel executes -/
  | select
  /-- STAGE (R181) -/
  | stage
  /-- FETCH (R183) -/
  | fetch
  /-- TURN (R38) -/
  | turn
  /-- ROUTE_OPEN (R143) -/
  | routeOpen
  /-- ROUTE_CLOSE (R152) -/
  | routeClose
  /-- PAUSE (R151) -/
  | pause
  /-- RESUME (R151) -/
  | resume
  /-- CLEAR_IMPAIRED (R150) -/
  | clearImpaired
  /-- STATUS (R187) -/
  | status
  /-- COUNTERS (R191) -/
  | counters
  /-- EVENTS (R190) -/
  | events
  /-- RESTART (R192) -/
  | restart
  deriving DecidableEq, Repr

end Sys2Proof
end

