-- ==== Sys2Proof/WellFormed.lean ====
section
/-! DEFINITION. Which commands are well formed: the frame a row carries has that row's message kind in byte 0 of its
payload (R2 and the kind table of 12_frame_parcel_and_entry_layouts.md), and a frame of FRAME_DROP_FOREIGN has no kind
that belongs to the port it arrived on. Rows without a frame are always well formed: their numbers are bounded by type. -/

namespace Sys2Proof

/-- Byte 0 of the payload, the message kind. -/
def Frame.kind (f : Frame) : Option Byte := f.payload.head?

/-- The message kinds that belong to a port (the table of R2). -/
def Port.ownKinds : Port → List Byte
  | .cluster => [0x01, 0x02, 0x03, 0x04, 0x05, 0x06, 0x30]
  | .longhaul => [0x20, 0x21, 0x22, 0x23, 0x24]

/-- The kind byte a frame-carrying row stands for; none for the rows that carry no frame of one fixed kind. -/
def Instr.frameKind : Instr → Option (Frame × Byte)
  | .openObject f => some (f, 0x01)
  | .body f => some (f, 0x02)
  | .seal f => some (f, 0x03)
  | .erase f => some (f, 0x04)
  | .drop f => some (f, 0x05)
  | .storeAnswer f => some (f, 0x06)
  | .dataSpan f => some (f, 0x20)
  | .markerSpan f => some (f, 0x21)
  | .receipt f => some (f, 0x22)
  | .probe f => some (f, 0x23)
  | .probeReply f => some (f, 0x24)
  | .controlParcel f => some (f, 0x30)
  | .powerOn | .linkDown _ | .linkUp _ | .passThrough _ _ | .frameDropForeign _ _ | .clusterTransmit | .longhaulGrant
  | .transmitComplete _ | .segmentPlace _ | .spanHoldExpiry _ | .pacingInterval | .resendTimeout _ | .probeTimer _
  | .receiptDelayExpiry _ | .deliveryTimeout _ | .epochTick | .deliveryFramePlace _ | .badCommand | .select | .stage
  | .fetch | .turn | .routeOpen | .routeClose | .pause | .resume | .clearImpaired | .status | .counters | .events
  | .restart => none

/-- A foreign frame's kind is none of its port's own. -/
def Instr.foreignOk : Instr → Bool
  | .frameDropForeign p f => !(f.kind.any fun k => p.ownKinds.contains k)
  | _ => true

/-- A command is well formed when its frame's message kind is the one its row stands for. -/
def Instr.wellFormed (i : Instr) : Bool :=
  (match i.frameKind with
   | some (f, k) => f.kind == some k
   | none => true) && i.foreignOk

end Sys2Proof
end

