-- ==== Sys2Proof/Config.lean ====
section
/-! DEFINITION. What is fixed for the machine: the sizes the spec gives its queues, tables and timers, and the free
values the model needs (values the spec leaves unstated, of which nothing can be proved). -/

namespace Sys2Proof.Config

/-- Free value (log entry 4): what a ROUTE status parcel reports of a route the part does not have: bits 7–0 the route
state, bit 8 PAUSED, bits 40–9 the local life, and bits 48–41 the route byte where the parcel's could not be read. Applied to
the State's counter `freeUses`, so that every use is a fresh value. -/
opaque absentRouteResult : Nat → BitVec 49

/-- Free value (log entry 34): the four bytes in which STATUS reports a map index of 2^32 or more, which R25 forms in 33 bits and
12.3 gives no form. Applied to the index. -/
opaque wideMapIndex : Nat → BitVec 32

/-- Frames a pass-through FIFO holds (R3). -/
def passPlaces : Nat := 256
/-- Places of the cluster output queue (R4). -/
def outPlaces : Nat := 512
/-- Places of the cluster output queue kept for frames other than replica frames (R4). -/
def outKept : Nat := 64
/-- Control parcels the parcel queue holds (R177). -/
def parcelPlaces : Nat := 4
/-- Record slots (4.1). -/
def recordSlots : Nat := 8192
/-- Records in use above which RECORDS_LOW holds (R50). -/
def recordsLowMark : Nat := 7680
/-- Records one key may have (R50). -/
def keyRecords : Nat := 4
/-- Extents of the extent region, and bytes of an extent (5.1). -/
def extents : Nat := 65536
/-- Bytes of one extent (5.1). -/
def extentBytes : Nat := 65536
/-- Descriptors of the descriptor pool (R80). -/
def descriptors : Nat := 65536
/-- Spans a send window holds (R104). -/
def windowSpans : Nat := 32768
/-- Inbound assemblies (R162). -/
def assemblies : Nat := 512
/-- Reorder-hold slots of a route (R79). -/
def holdSlots : Nat := 1024
/-- Largest declared length of an object (R8). -/
def maxObject : Nat := 67108864
/-- Segment bytes of a full span (6.4). -/
def spanRoom : Nat := 9162
/-- Segments of a span (R89). -/
def spanSegments : Nat := 227
/-- Bytes of a segment header (12.2). -/
def segHeader : Nat := 40
/-- Largest data length of a PUT_PART (R90). -/
def maxPart : Nat := 9122
/-- Where a counter stops (R191). -/
def counterMax : Nat := 2 ^ 48 - 1
/-- Entries of the placement map (2.2). -/
def mapEntries : Nat := 16384

end Sys2Proof.Config
end

