-- ==== Sys2Proof/Machine/Table.lean ====
section
/-! DEFINITION. Sparse tables: lists of (number, value) pairs in one canonical form (numbers strictly rising), used for
the record table, the key index, the placement map, the policy banks, the assemblies, the reorder-hold slots, the counters
and retention memory. -/

namespace Sys2Proof.Machine

/-- A sparse table keyed by number. -/
abbrev Table (α : Type) := List (Nat × α)

variable {α : Type}

/-- The value at number `k`, if the table lists one. -/
def Table.find (t : Table α) (k : Nat) : Option α :=
  match t with
  | [] => none
  | (k', v) :: rest => if k' = k then some v else Table.find rest k

/-- Writes `v` at number `k`, keeping the numbers rising. -/
def Table.insert (t : Table α) (k : Nat) (v : α) : Table α :=
  match t with
  | [] => [(k, v)]
  | (k', v') :: rest =>
    if k < k' then (k, v) :: (k', v') :: rest
    else if k' = k then (k, v) :: rest
    else (k', v') :: Table.insert rest k v

/-- Removes number `k`. -/
def Table.erase (t : Table α) (k : Nat) : Table α := t.filter fun e => e.1 != k

/-- The value at `k`, or `d` where the table lists none. -/
def Table.getD (t : Table α) (d : α) (k : Nat) : α := (Table.find t k).getD d

/-- Writes `v` at `k`; the value `d`, which an unlisted number reads as, is not listed. -/
def Table.setD [DecidableEq α] (t : Table α) (d : α) (k : Nat) (v : α) : Table α :=
  if v = d then Table.erase t k else Table.insert t k v

/-- The first number from `k` on, within `fuel` numbers, that the table does not list. -/
def Table.firstFree (t : Table α) (k : Nat) : Nat → Option Nat
  | 0 => none
  | fuel + 1 => if (Table.find t k).isNone then some k else Table.firstFree t (k + 1) fuel

/-- The lowest number below `n` that the table does not list. -/
def Table.lowestFree (t : Table α) (n : Nat) : Option Nat := Table.firstFree t 0 n

/-- The canonical form: numbers strictly rising. -/
def Table.rising (t : Table α) : Bool :=
  match t with
  | [] => true
  | [_] => true
  | (k, _) :: (k', v') :: rest => decide (k < k') && Table.rising ((k', v') :: rest)

end Sys2Proof.Machine
end

