-- ==== Sys2Proof/Machine/State.lean ====
section
/-! DEFINITION. The state of the part as plain data: every piece of state the spec gives each block, the station-address
strap pins, the time base, the queue of waiting commands, and the values after reset (power-on, R184). -/

namespace Sys2Proof.Machine

/-- Reasons the machine stops with a fault. -/
inductive Fault where
  /-- Raised by SEGMENT_PLACE, LONGHAUL_GRANT and DELIVERY_FRAME_PLACE when a body byte to be read was never written or its
  record is gone. R70: contents are undefined at power-on and every reader reads bytes its holder has written, so no run
  from reset raises it. Safe: the model stops, it picks no byte. -/
  | unwrittenBody
  deriving DecidableEq, Repr

/-- Reasons the model gives no meaning. -/
inductive Refusal where
  /-- The host's own: a row without a meaning. No arm of exec raises it. Safe. -/
  | notModelled (mnemonic : String)
  deriving DecidableEq, Repr

/-! ## Ports -/

/-- A frame the part originates, waiting in the cluster output queue (R4): its destination and its padded payload. The
source address and the frame type are those in force when it is sent (R1, R185). -/
structure OutFrame where
  dst : Addr
  payload : List Byte
  deriving DecidableEq, Repr

/-- The two sources of the cluster transmitter (R5). -/
inductive TxSource where
  | fifo
  | queue
  deriving DecidableEq, Repr

/-! ## Ingest Unit (1.3) -/

/-- The state of an ingest lane. -/
inductive LaneState where
  | idle
  | streaming
  | skip
  deriving DecidableEq, Repr

/-- The context of an ingest lane (1.3, R9). -/
structure Lane where
  state : LaneState
  record : Nat
  station : Addr
  key : Digest
  stamp : Stamp
  declared : Nat
  check : Word
  ingested : Nat
  crc : Word
  early : Bool
  deriving DecidableEq, Repr

/-- A lane at power-on (R9): IDLE, every field 0 but the running CRC-32C, which holds its initial value (R193). -/
def Lane.reset : Lane :=
  { state := .idle, record := 0, station := 0, key := 0, stamp := 0, declared := 0, check := 0, ingested := 0,
    crc := 0xFFFFFFFF, early := false }

/-! ## Placement Unit (2.1, 2.2) -/

/-- A bucket window, its fields at the widths of its words (12.4). -/
structure Window where
  enable : Bool
  mapped : Bool
  base : Word
  k : BitVec 6
  policy : BitVec 8
  mapBase : BitVec 14
  grain : BitVec 5
  deriving DecidableEq, Repr

/-- A window at power-on (R20): every field zero. -/
def Window.reset : Window :=
  { enable := false, mapped := false, base := 0, k := 0, policy := 0, mapBase := 0, grain := 0 }

/-- A placement map entry (2.2). -/
structure MapEntry where
  valid : Bool
  hold : Bool
  policy : BitVec 8
  deriving DecidableEq, Repr

/-- A map entry at power-on (R26): zero. -/
def MapEntry.reset : MapEntry := { valid := false, hold := false, policy := 0 }

/-- The kinds of placement fault (R29). -/
inductive FaultKind where
  | invalidEntry
  | beyondMap
  deriving DecidableEq, Repr

/-- The fault record of CONFIG_FAULT (R29). -/
structure FaultRecord where
  kind : FaultKind
  window : Nat
  bucket : Word
  index : Nat
  deriving DecidableEq, Repr

/-! ## Policy Store (3.1, 3.2) -/

/-- One destination of a policy. -/
structure Dest where
  route : RouteId
  required : Bool
  erases : Bool
  deriving DecidableEq, Repr

/-- A present policy entry (3.1). An absent entry is not listed in its bank. -/
structure Policy where
  cls : BitVec 2
  early : Bool
  quorum : Nat
  dests : List Dest
  deriving DecidableEq, Repr

/-- The two physical banks. -/
inductive Bank where
  | a
  | b
  deriving DecidableEq, Repr

/-! ## Record Manager (4.1, 4.2) -/

/-- Whether a record is a write or a delete. -/
inductive RecKind where
  | put
  | erase
  deriving DecidableEq, Repr

/-- The overall state of a record (R46). -/
inductive RecState where
  | ingesting
  | live
  | failed
  | draining
  deriving DecidableEq, Repr

/-- The nine states of a route slot (4.2). -/
inductive SlotState where
  | waiting
  | queued
  | sent
  | receipted
  | settled
  | faulted
  | superseded
  | cancelled
  | abandoned
  deriving DecidableEq, Repr

/-- The void reasons of a slot, and of a VOIDED outcome (R48, R66). -/
inductive VoidReason where
  | superseded
  | cancelled
  | abandoned
  | faulted
  deriving DecidableEq, Repr

/-- Progress of the closing notice (4.1). -/
inductive NoticeState where
  | noneOwed
  | owed
  | sent
  deriving DecidableEq, Repr

/-- The outcome of a record's closing notice (R66). -/
inductive RecOutcome where
  | landed
  | voided (reason : VoidReason)
  deriving DecidableEq, Repr

/-- A route slot (4.2). -/
structure Slot where
  route : RouteId
  required : Bool
  state : SlotState
  packed : Nat
  closing : Option Word
  void : Option VoidReason
  deriving DecidableEq, Repr

/-- A record (4.1). Its record number is its number in the record table. -/
structure Record where
  kind : RecKind
  bucket : Word
  key : Digest
  stamp : Stamp
  length : Nat
  check : Word
  station : Addr
  extents : List Nat
  ingested : Nat
  state : RecState
  cls : BitVec 2
  quorum : Nat
  early : Bool
  generation : Word
  slots : List Slot
  refs : Nat
  items : Nat
  notice : NoticeState
  outcome : Option RecOutcome
  deriving DecidableEq, Repr

/-! ## Retention Memory Controller (5) -/

/-- The free list of the extent pool (5.3): the extents `fresh` to 65,535 in ascending order, which have been free since
power-on or restart, followed by the extents released since, in the order of their release. -/
structure Pool where
  fresh : Nat
  returned : List Nat
  deriving DecidableEq, Repr

/-! ## Span Builder (6) -/

/-- The kinds of a control queue item (R83). -/
inductive ItemKind where
  | abort
  | erase
  deriving DecidableEq, Repr

/-- An item of a control queue. -/
structure CtrlItem where
  kind : ItemKind
  record : Nat
  deriving DecidableEq, Repr

/-- The kinds of a segment. -/
inductive SegKind where
  | putPart
  | erase
  | abort
  deriving DecidableEq, Repr

/-- An entry of a segment list (6.2). -/
structure SegEntry where
  record : Nat
  kind : SegKind
  offset : Nat
  len : Nat
  deriving DecidableEq, Repr

/-- The kinds of a span. -/
inductive SpanKind where
  | data
  | marker
  deriving DecidableEq, Repr

/-- A span in a buffer (6.2): the header fields written when it closes (R96), the segment area placed so far, and the
segment, record and closing lists. The closing list names records: a record has one slot per route. -/
structure Span where
  kind : SpanKind
  epoch : Word
  srcRegion : BitVec 6
  dstRegion : BitVec 6
  area : List Byte
  segs : List SegEntry
  recs : List Nat
  closing : List Nat
  deriving DecidableEq, Repr

/-- A span with nothing in it. -/
def Span.empty : Span :=
  { kind := .data, epoch := 0, srcRegion := 0, dstRegion := 0, area := [], segs := [], recs := [], closing := [] }

/-- The condition of the FILLING buffer (6.2): EMPTY, OPEN (here `filling`) or CLOSED. -/
inductive FillState where
  | empty
  | filling
  | closed
  deriving DecidableEq, Repr

/-- The queues and span buffers of a route (6.1, 6.2). -/
structure Builder where
  ctrlQ : List CtrlItem
  classQ : Vector (List Nat) 4
  fill : FillState
  fillSpan : Span
  ready : Option Span
  marker : Option Word
  holdStart : Option Nat
  deriving DecidableEq, Repr

/-- A builder at power-on (R81, R85). -/
def Builder.reset : Builder :=
  { ctrlQ := [], classQ := Vector.replicate 4 [], fill := .empty, fillSpan := Span.empty, ready := none, marker := none,
    holdStart := none }

/-! ## Span Transmitter and Receipt Processor (7) -/

/-- A descriptor of a transmitted span (R103). -/
structure Descriptor where
  seq : Word
  kind : SpanKind
  epoch : Word
  wire : Nat
  segs : List SegEntry
  recs : List Nat
  closing : List Nat
  firstSend : Nat
  lastSend : Nat
  resent : Bool
  requested : Option Nat
  onList : Bool
  deriving DecidableEq, Repr

/-- An entry of the settlement queue (R118); the slot is the record's slot on the queue's route. -/
structure SettleEntry where
  seq : Word
  record : Nat
  deriving DecidableEq, Repr

/-- The transmit state of a route (R102) and its three due marks (R108). The resend list holds sequences of the window. -/
structure Transmit where
  nextSeq : Word
  through : Word
  window : List Descriptor
  inFlight : Nat
  resend : List Word
  settleQ : List SettleEntry
  timer : Option Nat
  timeouts : Nat
  receiptDue : Bool
  probeDue : Bool
  replyDue : Bool
  deriving DecidableEq, Repr

/-- The transmit state at power-on (R102, R108). -/
def Transmit.reset : Transmit :=
  { nextSeq := 1, through := 0, window := [], inFlight := 0, resend := [], settleQ := [], timer := none, timeouts := 0,
    receiptDue := false, probeDue := false, replyDue := false }

/-! ## Pacing Unit (8.1) -/

/-- The regulator state. -/
inductive Regulator where
  | acquire
  | track
  deriving DecidableEq, Repr

/-- The pacing state of a route (R125). -/
structure Pacing where
  rate : Nat
  srtt : Nat
  credit : Int
  regulator : Regulator
  lastInc : Option Nat
  lastDec : Option Nat
  hold : Option Word
  deriving DecidableEq, Repr

/-- The closed values (R125). -/
def Pacing.reset : Pacing :=
  { rate := 0, srtt := 0, credit := 0, regulator := .acquire, lastInc := none, lastDec := none, hold := none }

/-! ## Route Controller (9) -/

/-- A route configuration (9.1), its fields at the widths of its words (12.4). -/
structure RouteCfg where
  region : BitVec 6
  addr : Addr
  ceil : BitVec 17
  floor : BitVec 17
  startRate : BitVec 17
  burst : BitVec 9
  srttInit : BitVec 21
  probePeriod : BitVec 14
  rtoPad : BitVec 17
  deriving DecidableEq, Repr

/-- A configuration at power-on (R140): all zero. -/
def RouteCfg.reset : RouteCfg :=
  { region := 0, addr := 0, ceil := 0, floor := 0, startRate := 0, burst := 0, srttInit := 0, probePeriod := 0, rtoPad := 0 }

/-- The five route states (R142). -/
inductive RouteState where
  | closed
  | opening
  | acquire
  | track
  | impaired
  deriving DecidableEq, Repr

/-- The outstanding marker (R142). -/
structure Marker where
  epoch : Word
  requested : Nat
  seq : Option Word
  deriving DecidableEq, Repr

/-- What the Route Controller holds for a route (R142). -/
structure Control where
  state : RouteState
  paused : Bool
  recovered : Bool
  cleared : Bool
  life : Word
  prevLife : Word
  remoteLife : Option Word
  echo : Word
  probeTimer : Option Nat
  epoch : Word
  marker : Option Marker
  settledEpoch : Word
  settledFault : Bool
  deriving DecidableEq, Repr

/-- The controller of a route at power-on (R142). -/
def Control.reset : Control :=
  { state := .closed, paused := false, recovered := false, cleared := false, life := 0, prevLife := 0, remoteLife := none,
    echo := 0, probeTimer := none, epoch := 0, marker := none, settledEpoch := 0, settledFault := false }

/-! ## Inbound Unit (10.1) -/

/-- A span in a reorder-hold slot (R79): stored whole as received, with its sequence and its length, which is that of the
payload, without Ethernet header and frame check sequence (log entry 37). -/
structure HeldSpan where
  seq : Word
  len : Nat
  frame : Frame
  deriving DecidableEq, Repr

/-- The pending marker (R158). -/
structure PendingMarker where
  epoch : Word
  count : Nat
  faulted : Bool
  deriving DecidableEq, Repr

/-- The inbound state of a route (R158). The missing set is derived from the slots (R161). -/
structure Inbound where
  expected : Word
  lastApplied : Word
  held : Table HeldSpan
  pendCount : Nat
  pendTime : Option Nat
  settledEpoch : Word
  settledFault : Bool
  marker : Option PendingMarker
  openFault : Bool
  deriving DecidableEq, Repr

/-- The inbound state at power-on and after an inbound reset (R158). -/
def Inbound.reset : Inbound :=
  { expected := 1, lastApplied := 0, held := [], pendCount := 0, pendTime := none, settledEpoch := 0, settledFault := false,
    marker := none, openFault := false }

/-- The state of an assembly in use (R162). -/
inductive AsmState where
  | assembling
  | queued
  | delivering
  deriving DecidableEq, Repr

/-- The marker standing of an assembly (R169). -/
inductive Standing where
  | behind
  | ahead
  | detached
  deriving DecidableEq, Repr

/-- An inbound assembly in use (R162). Its number is its number in the assembly table. -/
structure Assembly where
  route : RouteId
  kind : RecKind
  key : Digest
  bucket : Word
  stamp : Stamp
  region : BitVec 6
  length : Nat
  check : Word
  extents : List Nat
  received : Nat
  crc : Word
  state : AsmState
  standing : Standing
  deriving DecidableEq, Repr

/-- Everything the part holds for one route. -/
structure Route where
  cfg : RouteCfg
  ctl : Control
  pace : Pacing
  tx : Transmit
  bld : Builder
  inb : Inbound
  deriving DecidableEq, Repr

/-- A route at power-on. -/
def Route.reset : Route :=
  { cfg := RouteCfg.reset, ctl := Control.reset, pace := Pacing.reset, tx := Transmit.reset, bld := Builder.reset,
    inb := Inbound.reset }

/-! ## Delivery Unit (10.8) -/

/-- The state of a delivery lane. -/
inductive DLaneState where
  | idle
  | sending
  | awaiting
  deriving DecidableEq, Repr

/-- Which replica frame a SENDING lane places next (R172). -/
inductive DPhase where
  | opening
  | body
  | sealing
  deriving DecidableEq, Repr

/-- A delivery lane (10.8): state, assembly, attempt count, send offset, which frame is next, whether that frame waits
for room (R4), and the timer expiry. What all but the state and the timer hold at a lane that went IDLE is log entry 47. -/
structure DLane where
  state : DLaneState
  asm : Nat
  attempts : Nat
  sendOffset : Nat
  phase : DPhase
  waiting : Bool
  expiry : Option Nat
  deriving DecidableEq, Repr

/-- A delivery lane at power-on (R171). -/
def DLane.reset : DLane :=
  { state := .idle, asm := 0, attempts := 0, sendOffset := 0, phase := .opening, waiting := false, expiry := none }

/-! ## Management Unit (11) -/

/-- A control parcel in the parcel queue: the payload as it arrived and the station it came from (R177). -/
structure Parcel where
  src : Addr
  bytes : List Byte
  deriving DecidableEq, Repr

/-- The tables of the table cursor (11.2). -/
inductive TableName where
  | windows
  | placementMap
  | policyStandby
  | policyActive
  | routes
  | localEntry
  deriving DecidableEq, Repr

/-- The table cursor (R179). -/
structure Cursor where
  table : TableName
  index : Nat
  pos : Nat
  write : Bool
  staged : List Word
  deriving DecidableEq, Repr

/-- The cursor at power-on (R179). -/
def Cursor.reset : Cursor := { table := .windows, index := 0, pos := 0, write := false, staged := [] }

/-- The local settings (11.3), in the units of the spec's table. -/
structure Settings where
  localRegion : BitVec 6
  clusterAddr : Addr
  longAddr : Addr
  frameType : BitVec 16
  mgmtStation : Addr
  epochPeriod : Nat
  cutThrough : Nat
  spanHold : Nat
  receiptDelay : Nat
  inboundReserve : Nat
  poolLowMark : Nat
  deliveryWait : Nat
  deriving DecidableEq, Repr

/-- The settings at power-on (R184), the station addresses being those on the strap pins. -/
def Settings.reset (clusterPins longPins : Addr) : Settings :=
  { localRegion := 0, clusterAddr := clusterPins, longAddr := longPins, frameType := 0x9C40, mgmtStation := 0,
    epochPeriod := 1000, cutThrough := 1048576, spanHold := 200, receiptDelay := 1000, inboundReserve := 4096,
    poolLowMark := 2048, deliveryWait := 5000 }

/-- The state of the part. -/
structure State where
  /-- the microsecond time base, counting from power-on -/
  now : Nat
  /-- the strap pins of the two station addresses -/
  clusterPins : Addr
  longPins : Addr
  /-- link state of the two ports (R6) -/
  clusterUp : Bool
  longUp : Bool
  /-- pass-through FIFO toward the long-haul port, oldest first (R3) -/
  passOut : List Frame
  /-- pass-through FIFO toward the cluster port, oldest first (R3) -/
  passIn : List Frame
  /-- cluster output queue, oldest first (R4) -/
  outQ : List OutFrame
  /-- the frame the cluster transmitter is sending; none when it is idle (R5) -/
  clusterTx : Option Frame
  /-- the source the cluster transmitter served last (R5) -/
  clusterLast : TxSource
  /-- the frame the long-haul transmitter is sending; none when it is idle (R106, R110) -/
  longTx : Option Frame
  /-- the arbiter's participant last served: routes 0 to 7, 8 for the pass-through FIFO (R106) -/
  arbLast : Fin 9
  /-- ingest lanes (1.3) -/
  lanes : Vector Lane 64
  /-- bucket windows (2.1) -/
  windows : Vector Window 8
  /-- placement map; an entry not listed is zero (2.2) -/
  pmap : Table MapEntry
  /-- fault record of CONFIG_FAULT (R29) -/
  faultRecord : Option FaultRecord
  /-- physical policy bank A; an entry not listed is absent (3.2) -/
  bankA : Table Policy
  /-- physical policy bank B -/
  bankB : Table Policy
  /-- the bank whose role is ACTIVE -/
  active : Bank
  generation : Word
  armed : Bool
  /-- record table, by record number; a number not listed is a free slot (4.1) -/
  records : Table Record
  /-- key index: the record numbers of each key digest, oldest version first (4.3) -/
  keyIndex : Table (List Nat)
  /-- extent region of the retention memory, by byte address 65,536 × extent + position (5.1) -/
  dram : List Host.Cell
  /-- extent pool (5.3) -/
  pool : Pool
  /-- free descriptors of the descriptor pool (R80) -/
  descFree : Nat
  /-- the eight routes -/
  routes : Vector Route 8
  /-- time of the previous epoch tick, power-on before any (R154) -/
  lastTick : Nat
  /-- time of the next pacing interval expiry (R127) -/
  pacingNext : Nat
  /-- inbound assemblies in use, by number (R162) -/
  assemblies : Table Assembly
  /-- delivery queue: assembly numbers, head first (10.8) -/
  deliveryQ : List Nat
  /-- delivery lanes (10.8) -/
  dlanes : Vector DLane 16
  /-- parcel queue, head first (R177) -/
  parcels : List Parcel
  cursor : Cursor
  /-- event latches and enable mask, bit n for the class at position n of the class table (11.5, 12.3) -/
  latches : BitVec 13
  mask : BitVec 13
  /-- counters, by 64 × group code + place in the group; a counter not listed is 0 (R191) -/
  counters : Table Nat
  settings : Settings
  /-- the model's own: how many free values have been used (log entry 4) -/
  freeUses : Nat
  /-- the commands that are waiting, first in, first out -/
  pending : List Instr
  deriving DecidableEq, Repr

/-- The machine at power-on, with the given addresses on the strap pins (R184 and each block's own rule). -/
def State.powerOn (clusterPins longPins : Addr) : State :=
  { now := 0, clusterPins := clusterPins, longPins := longPins, clusterUp := false, longUp := false, passOut := [],
    passIn := [], outQ := [], clusterTx := none, clusterLast := .queue, longTx := none, arbLast := 8,
    lanes := Vector.replicate 64 Lane.reset, windows := Vector.replicate 8 Window.reset, pmap := [], faultRecord := none,
    bankA := [], bankB := [], active := .a, generation := 1, armed := false, records := [], keyIndex := [], dram := [],
    pool := { fresh := 0, returned := [] }, descFree := Config.descriptors, routes := Vector.replicate 8 Route.reset,
    lastTick := 0, pacingNext := 64, assemblies := [], deliveryQ := [], dlanes := Vector.replicate 16 DLane.reset,
    parcels := [], cursor := Cursor.reset, latches := 0, mask := 0, counters := [],
    settings := Settings.reset clusterPins longPins, freeUses := 0, pending := [] }

/-- The machine right after reset: power-on with log entry 3's addresses on the strap pins and no command waiting. -/
def State.reset : State := State.powerOn 0x020000000001 0x020000000002

/-- What a command's meaning answers. -/
abbrev Result := Host.Outcome State Fault Refusal

end Sys2Proof.Machine
end

