-- ==== Sys2Proof/Machine/Flags.lean ====
section
/-! DEFINITION. The event classes and their latches (11.5), the counters and their groups (11.6), and how a class latches
and a counter counts. -/

namespace Sys2Proof.Machine

/-! ## Event classes -/

/-- The thirteen event classes, in the order of the class table of 11.5. -/
inductive EventClass where
  | routeChange
  | routeImpaired
  | rateLock
  | poolLow
  | recordsLow
  | parcelLost
  | badSpan
  | badObject
  | deliveryFail
  | epochFault
  | remoteRestart
  | linkLoss
  | configFault
  deriving DecidableEq, Repr

/-- The class's bit position (12.3). -/
def EventClass.pos : EventClass → Nat
  | .routeChange => 0
  | .routeImpaired => 1
  | .rateLock => 2
  | .poolLow => 3
  | .recordsLow => 4
  | .parcelLost => 5
  | .badSpan => 6
  | .badObject => 7
  | .deliveryFail => 8
  | .epochFault => 9
  | .remoteRestart => 10
  | .linkLoss => 11
  | .configFault => 12

/-- The class's bit. -/
def EventClass.bit (c : EventClass) : BitVec 13 := 1#13 <<< c.pos

/-- Whether class `c` is latched. -/
def State.latched (s : State) (c : EventClass) : Bool := s.latches.getLsbD c.pos

/-- Class `c` latches, whatever the mask holds; a latched class stays as it is (R188). -/
def State.latch (s : State) (c : EventClass) : State := { s with latches := s.latches ||| c.bit }

/-! ## Counters -/

/-- The ingest group's counters, in the order a COUNTERS result gives them: chapters 1 to 5 (1.7, R30, R41, R69, 5.9). -/
inductive IngestCounter where
  | malformedEvent
  | idleBody
  | skippedBody
  | idleSeal
  | laneAbort
  | placeNoWindow
  | placeBeyondMap
  | placeInvalid
  | placeHeld
  | policyAbsent
  | recordStale
  | recordCrowded
  | recordTableFull
  | recordWithdrawn
  | recordFailed
  | slotSuperseded
  | slotCancelled
  | slotAbandoned
  | slotSettled
  | slotFaulted
  | abortQueued
  | noticeLanded
  | noticeVoided
  | extentRefusedOut
  deriving DecidableEq, Repr

/-- The counter's place in its group's result (12.3). -/
def IngestCounter.place : IngestCounter → Nat
  | .malformedEvent => 0
  | .idleBody => 1
  | .skippedBody => 2
  | .idleSeal => 3
  | .laneAbort => 4
  | .placeNoWindow => 5
  | .placeBeyondMap => 6
  | .placeInvalid => 7
  | .placeHeld => 8
  | .policyAbsent => 9
  | .recordStale => 10
  | .recordCrowded => 11
  | .recordTableFull => 12
  | .recordWithdrawn => 13
  | .recordFailed => 14
  | .slotSuperseded => 15
  | .slotCancelled => 16
  | .slotAbandoned => 17
  | .slotSettled => 18
  | .slotFaulted => 19
  | .abortQueued => 20
  | .noticeLanded => 21
  | .noticeVoided => 22
  | .extentRefusedOut => 23

/-- The inbound group's counters: chapters 5, 7, 9 and 10 (5.9, R124, R157, R176). -/
inductive InboundCounter where
  | extentRefusedIn
  | receiptCorrupt
  | receiptMisrouted
  | probeCorrupt
  | probeMisrouted
  | spanCorrupt
  | spanMisrouted
  | deliveriesStarted
  | deliveryRetries
  | deliveredStored
  | deliveredOlder
  | deliveryFailed
  | answerMalformed
  | answerIgnored
  deriving DecidableEq, Repr

/-- The counter's place in its group's result (12.3). -/
def InboundCounter.place : InboundCounter → Nat
  | .extentRefusedIn => 0
  | .receiptCorrupt => 1
  | .receiptMisrouted => 2
  | .probeCorrupt => 3
  | .probeMisrouted => 4
  | .spanCorrupt => 5
  | .spanMisrouted => 6
  | .deliveriesStarted => 7
  | .deliveryRetries => 8
  | .deliveredStored => 9
  | .deliveredOlder => 10
  | .deliveryFailed => 11
  | .answerMalformed => 12
  | .answerIgnored => 13

/-- The ports group's counters (1.7). -/
inductive PortCounter where
  | unknownKind
  | eventForeign
  | parcelForeign
  | spanForeign
  | passDropOut
  | passDropIn
  | clusterOutDrop
  | clusterLinkDown
  | longhaulLinkDown
  deriving DecidableEq, Repr

/-- The counter's place in its group's result (12.3). -/
def PortCounter.place : PortCounter → Nat
  | .unknownKind => 0
  | .eventForeign => 1
  | .parcelForeign => 2
  | .spanForeign => 3
  | .passDropOut => 4
  | .passDropIn => 5
  | .clusterOutDrop => 6
  | .clusterLinkDown => 7
  | .longhaulLinkDown => 8

/-- The management group's counters, in order of first mention in chapter 11, which has no table (log entry 5). -/
inductive MgmtCounter where
  | parcelsDropped
  | parcelsExecuted
  | parcelsRefused
  | parcelsPartial
  | alertsSent
  deriving DecidableEq, Repr

/-- The counter's place in its group's result (12.3). -/
def MgmtCounter.place : MgmtCounter → Nat
  | .parcelsDropped => 0
  | .parcelsExecuted => 1
  | .parcelsRefused => 2
  | .parcelsPartial => 3
  | .alertsSent => 4

/-- A route group's counters: chapters 6 to 10 (R100, R124, R139, R157, R176). -/
inductive RouteCounter where
  | spansClosedRoom
  | spansClosedHold
  | spansClosedMarker
  | markersBuilt
  | headRotations
  | spansSent
  | markersSent
  | spansResent
  | receiptsTaken
  | receiptEarly
  | badReceipt
  | rttSamples
  | gapRequests
  | resendTimeouts
  | epochsSettled
  | epochsFaulted
  | samplesClamped
  | lossEvents
  | lossIgnored
  | rateDecreases
  | rateIncreases
  | probesSent
  | repliesSent
  | probeIgnored
  | replyIgnored
  | impairedEntries
  | rebases
  | epochDeferred
  | duplicateSpans
  | outOfWindow
  | spansHeld
  | spansApplied
  | inboundStarved
  | orphan
  | objectsComplete
  | objectsBad
  | assemblyReplaced
  | abortsMatched
  | abortsUnmatched
  | markersApplied
  | markersSettled
  | markersFaulted
  | markersMerged
  | receiptsSent
  deriving DecidableEq, Repr

/-- The counter's place in its group's result (12.3). -/
def RouteCounter.place : RouteCounter → Nat
  | .spansClosedRoom => 0
  | .spansClosedHold => 1
  | .spansClosedMarker => 2
  | .markersBuilt => 3
  | .headRotations => 4
  | .spansSent => 5
  | .markersSent => 6
  | .spansResent => 7
  | .receiptsTaken => 8
  | .receiptEarly => 9
  | .badReceipt => 10
  | .rttSamples => 11
  | .gapRequests => 12
  | .resendTimeouts => 13
  | .epochsSettled => 14
  | .epochsFaulted => 15
  | .samplesClamped => 16
  | .lossEvents => 17
  | .lossIgnored => 18
  | .rateDecreases => 19
  | .rateIncreases => 20
  | .probesSent => 21
  | .repliesSent => 22
  | .probeIgnored => 23
  | .replyIgnored => 24
  | .impairedEntries => 25
  | .rebases => 26
  | .epochDeferred => 27
  | .duplicateSpans => 28
  | .outOfWindow => 29
  | .spansHeld => 30
  | .spansApplied => 31
  | .inboundStarved => 32
  | .orphan => 33
  | .objectsComplete => 34
  | .objectsBad => 35
  | .assemblyReplaced => 36
  | .abortsMatched => 37
  | .abortsUnmatched => 38
  | .markersApplied => 39
  | .markersSettled => 40
  | .markersFaulted => 41
  | .markersMerged => 42
  | .receiptsSent => 43

/-- A counter of one of the five kinds of group (11.6). -/
inductive Counter where
  | ingest (c : IngestCounter)
  | inbound (c : InboundCounter)
  | ports (c : PortCounter)
  | management (c : MgmtCounter)
  | route (r : RouteId) (c : RouteCounter)
  deriving DecidableEq, Repr

/-- Where counter `i` of the group of code `g` is kept. -/
def counterKey (g i : Nat) : Nat := 64 * g + i

/-- Where a counter is kept; the group codes are those of COUNTERS (12.3). -/
def Counter.key : Counter → Nat
  | .ingest c => counterKey 0 c.place
  | .inbound c => counterKey 1 c.place
  | .ports c => counterKey 2 c.place
  | .management c => counterKey 3 c.place
  | .route r c => counterKey (16 + r.val) c.place

/-- How many counters the group of a code has; none for a code that names no group. -/
def groupSize (g : Nat) : Option Nat :=
  if g = 0 then some 24
  else if g = 1 then some 14
  else if g = 2 then some 9
  else if g = 3 then some 5
  else if 16 ≤ g ∧ g < 24 then some 44
  else none

/-- The value of a counter. -/
def State.counter (s : State) (c : Counter) : Nat := Table.getD s.counters 0 c.key

/-- Counts `n` events: a counter holds at 2^48 − 1 once it reaches that value (R191). -/
def State.countBy (s : State) (n : Nat) (c : Counter) : State :=
  { s with counters := Table.setD s.counters 0 c.key (min (s.counter c + n) Config.counterMax) }

/-- Counts one event (R191). -/
def State.count (s : State) (c : Counter) : State := s.countBy 1 c

/-- Counts one event if `b` holds. -/
def State.countIf (s : State) (b : Bool) (c : Counter) : State := if b then s.count c else s

/-- Counts one event in a route's group. -/
def State.countRoute (s : State) (r : RouteId) (c : RouteCounter) : State := s.count (.route r c)

end Sys2Proof.Machine
end

