-- ==== Sys2Proof/Machine/Operands.lean ====
section
/-! DEFINITION. The operand forms: byte order and fields, CRC-32C, serial order of sequences, and the layout of every
frame, parcel and table entry the part reads or writes (12_frame_parcel_and_entry_layouts.md, R101, R193, R194). -/

namespace Sys2Proof.Machine

/-! ## Bytes -/

/-- The number whose bytes, most significant first, are the list. -/
def beNat (bs : List Byte) : Nat := bs.foldl (fun a b => a * 256 + b.toNat) 0

/-- The low `n` bytes of `v`, most significant first. -/
def toBE : Nat → Nat → List Byte
  | 0, _ => []
  | n + 1, v => BitVec.ofNat 8 (v / 256 ^ n) :: toBE n v

/-- The `n`-byte field at byte `off` of a payload. -/
def field (p : List Byte) (off n : Nat) : Nat := beNat ((p.drop off).take n)

/-- Bit `i` of the byte at `off`. -/
def fieldBit (p : List Byte) (off i : Nat) : Bool := (field p off 1).testBit i

/-- The 32-bit field at byte `off`. -/
def field32 (p : List Byte) (off : Nat) : Word := BitVec.ofNat 32 (field p off 4)

/-- The 64-bit field at byte `off`. -/
def field64 (p : List Byte) (off : Nat) : BitVec 64 := BitVec.ofNat 64 (field p off 8)

/-- Padding to the Ethernet minimum of 46 payload bytes, with zero bytes (R194). -/
def pad (p : List Byte) : List Byte := p ++ List.replicate (46 - p.length) 0

/-- Whether a received payload's length agrees with the length `n` its kind and fields give (R194). -/
def lengthAgrees (p : List Byte) (n : Nat) : Bool := p.length == n || (decide (n < 46) && p.length == 46)

/-- One bit as a byte. -/
def bitByte (b : Bool) (i : Nat) : Nat := if b then 2 ^ i else 0

/-! ## CRC-32C (R193) -/

/-- One shift of the reflected register against 0x82F63B78. -/
def crcShift (r : Word) : Word := if r.getLsbD 0 then (r >>> 1) ^^^ 0x82F63B78#32 else r >>> 1

/-- `n` shifts. -/
def crcShifts : Nat → Word → Word
  | 0, r => r
  | n + 1, r => crcShifts n (crcShift r)

/-- Takes one byte, least significant bit first. -/
def crcByte (r : Word) (b : Byte) : Word := crcShifts 8 (r ^^^ b.setWidth 32)

/-- Takes a run of bytes in order. -/
def crcBytes (r : Word) (bs : List Byte) : Word := bs.foldl crcByte r

/-- The register before the first byte. -/
def crcInit : Word := 0xFFFFFFFF

/-- The final exclusive-OR. -/
def crcFinal (r : Word) : Word := r ^^^ 0xFFFFFFFF#32

/-- The CRC-32C of a run of bytes. -/
def crc32c (bs : List Byte) : Word := crcFinal (crcBytes crcInit bs)

/-! ## Sequences (R101) -/

/-- `a` precedes `b` in serial order. -/
def precedes (a b : Word) : Bool := decide (1 ≤ (b - a).toNat) && decide ((b - a).toNat ≤ 2 ^ 31 - 1)

/-- The successor of a sequence, skipping 0. -/
def seqSucc (s : Word) : Word := if s = 0xFFFFFFFF then 1 else s + 1

/-- The sequence whose successor is `s`. -/
def seqPred (s : Word) : Word := if s = 1 then 0xFFFFFFFF else s - 1

/-- The step count of `s` from `x` (R160): successor steps from `x` to `s`, sequence 0 skipped. -/
def seqSteps (x s : Word) : Nat := if x.toNat ≤ s.toNat then s.toNat - x.toNat else 2 ^ 32 - 1 - x.toNat + s.toNat

/-- The sequence `n` steps after `x`. -/
def seqAdvance : Nat → Word → Word
  | 0, x => x
  | n + 1, x => seqAdvance n (seqSucc x)

/-! ## Station addresses -/

/-- Individual: the first byte on the wire has its lowest bit clear (9.1). -/
def individual (a : Addr) : Bool := !a.getLsbD 40

/-! ## Object event frames (1.2, 12.3) -/

/-- A well-formed OPEN. -/
structure OpenFrame where
  lane : LaneId
  bucket : Word
  key : Digest
  stamp : Stamp
  length : Nat
  check : Word
  deriving DecidableEq, Repr

/-- A well-formed ERASE. -/
structure EraseFrame where
  lane : LaneId
  bucket : Word
  key : Digest
  stamp : Stamp
  deriving DecidableEq, Repr

/-- A well-formed BODY. -/
structure BodyFrame where
  lane : LaneId
  offset : Nat
  data : List Byte
  deriving DecidableEq, Repr

/-- The lane of byte 1, when it is 0 to 63 (R8). -/
def readLane (p : List Byte) : Option LaneId :=
  if h : field p 1 1 < 64 then some ⟨field p 1 1, h⟩ else none

/-- Reads an OPEN; none when it is malformed (R8). -/
def readOpen (p : List Byte) : Option OpenFrame :=
  match readLane p with
  | none => none
  | some l =>
    if lengthAgrees p 32 && field64 p 16 != 0 && decide (field p 24 4 ≤ Config.maxObject) then
      some { lane := l, bucket := field32 p 4, key := field64 p 8, stamp := field64 p 16, length := field p 24 4,
             check := field32 p 28 }
    else none

/-- Reads an ERASE; none when it is malformed (R8). -/
def readErase (p : List Byte) : Option EraseFrame :=
  match readLane p with
  | none => none
  | some l =>
    if lengthAgrees p 24 && field64 p 16 != 0 then
      some { lane := l, bucket := field32 p 4, key := field64 p 8, stamp := field64 p 16 }
    else none

/-- Reads a BODY; none when it is malformed (R8). -/
def readBodyFrame (p : List Byte) : Option BodyFrame :=
  match readLane p with
  | none => none
  | some l =>
    if decide (8 ≤ p.length) && lengthAgrees p (8 + field p 2 2) && decide (1 ≤ field p 2 2) && decide (field p 2 2 ≤ 8192) then
      some { lane := l, offset := field p 4 4, data := (p.drop 8).take (field p 2 2) }
    else none

/-- Reads the lane of a SEAL or DROP; none when it is malformed (R8). -/
def readLaneFrame (p : List Byte) : Option LaneId :=
  if lengthAgrees p 4 then readLane p else none

/-- The twelve verdicts of an ingest answer, in the order of the verdict table of 1.2. -/
inductive Verdict where
  | accepted
  | localOnly
  | unplaced
  | held
  | stale
  | crowded
  | tableFull
  | full
  | badBody
  | badSequence
  | dropped
  | malformed
  deriving DecidableEq, Repr

/-- The verdict's number, from 1 (12.3). -/
def Verdict.code : Verdict → Nat
  | .accepted => 1
  | .localOnly => 2
  | .unplaced => 3
  | .held => 4
  | .stale => 5
  | .crowded => 6
  | .tableFull => 7
  | .full => 8
  | .badBody => 9
  | .badSequence => 10
  | .dropped => 11
  | .malformed => 12

/-- An ingest answer's payload (12.3). -/
def answerPayload (lane : Nat) (key : Digest) (stamp : Stamp) (v : Verdict) : List Byte :=
  pad (toBE 1 0x10 ++ toBE 1 lane ++ toBE 1 v.code ++ toBE 1 0 ++ toBE 8 key.toNat ++ toBE 8 stamp.toNat)

/-! ## Closing notices and replica frames (12.3) -/

/-- The record kind's code. -/
def RecKind.code : RecKind → Nat
  | .put => 1
  | .erase => 2

/-- The outcome's code. -/
def RecOutcome.code : RecOutcome → Nat
  | .landed => 1
  | .voided _ => 2

/-- The reason's code; a notice carries no CANCELLED (R66), whose code here is that of no reason. -/
def RecOutcome.reasonCode : RecOutcome → Nat
  | .landed => 0
  | .voided .superseded => 1
  | .voided .abandoned => 2
  | .voided .faulted => 3
  | .voided .cancelled => 0

/-- The set of routes whose slots are SETTLED, bit n for route n (R67). -/
def settledSet (slots : List Slot) : Nat :=
  slots.foldl (fun a sl => if sl.state = .settled then a ||| 2 ^ sl.route.val else a) 0

/-- A closing notice's payload (R67). -/
def noticePayload (rec : Record) (o : RecOutcome) : List Byte :=
  pad (toBE 1 0x11 ++ toBE 1 rec.kind.code ++ toBE 1 o.code ++ toBE 1 o.reasonCode ++ toBE 1 (settledSet rec.slots) ++
    toBE 3 0 ++ toBE 4 rec.bucket.toNat ++ toBE 8 rec.key.toNat ++ toBE 8 rec.stamp.toNat ++ toBE 4 rec.generation.toNat)

/-- REPLICA_OPEN. -/
def replicaOpenPayload (lane : Nat) (a : Assembly) : List Byte :=
  pad (toBE 1 0x12 ++ toBE 1 lane ++ toBE 1 a.region.toNat ++ toBE 1 0 ++ toBE 4 a.bucket.toNat ++ toBE 8 a.key.toNat ++
    toBE 8 a.stamp.toNat ++ toBE 4 a.length ++ toBE 4 a.check.toNat)

/-- REPLICA_BODY. -/
def replicaBodyPayload (lane offset : Nat) (data : List Byte) : List Byte :=
  pad (toBE 1 0x13 ++ toBE 1 lane ++ toBE 2 data.length ++ toBE 4 offset ++ data)

/-- REPLICA_SEAL. -/
def replicaSealPayload (lane : Nat) : List Byte := pad (toBE 1 0x14 ++ toBE 1 lane ++ toBE 2 0)

/-- REPLICA_ERASE. -/
def replicaErasePayload (lane : Nat) (a : Assembly) : List Byte :=
  pad (toBE 1 0x15 ++ toBE 1 lane ++ toBE 1 a.region.toNat ++ toBE 1 0 ++ toBE 4 a.bucket.toNat ++ toBE 8 a.key.toNat ++
    toBE 8 a.stamp.toNat)

/-! ## Store answers (R173) -/

/-- The three verdicts of a store answer. -/
inductive StoreVerdict where
  | stored
  | older
  | failed
  deriving DecidableEq, Repr

/-- Reads a store answer; none when its length disagrees, its lane is above 15 or its verdict is none of the three. -/
def readStoreAnswer (p : List Byte) : Option (DeliveryLaneId × StoreVerdict) :=
  if h : field p 1 1 < 16 then
    if lengthAgrees p 4 then
      match field p 2 1 with
      | 1 => some (⟨field p 1 1, h⟩, .stored)
      | 2 => some (⟨field p 1 1, h⟩, .older)
      | 3 => some (⟨field p 1 1, h⟩, .failed)
      | _ => none
    else none
  else none

/-! ## Spans (12.2) -/

/-- A segment: its header's fields, and a PUT_PART's data. -/
structure Segment where
  kind : SegKind
  first : Bool
  last : Bool
  bucket : Word
  key : Digest
  stamp : Stamp
  objLen : Nat
  offset : Nat
  check : Word
  data : List Byte
  deriving DecidableEq, Repr

/-- The segment kind's code. -/
def SegKind.code : SegKind → Nat
  | .putPart => 1
  | .erase => 2
  | .abort => 3

/-- The segment kind of a code. -/
def segKindOf : Nat → Option SegKind
  | 1 => some .putPart
  | 2 => some .erase
  | 3 => some .abort
  | _ => none

/-- A segment as bytes: the 40-byte header, then the data. -/
def segmentBytes (g : Segment) : List Byte :=
  toBE 1 g.kind.code ++ toBE 1 (bitByte g.first 0 + bitByte g.last 1) ++ toBE 2 0 ++ toBE 4 g.bucket.toNat ++
    toBE 8 g.key.toNat ++ toBE 8 g.stamp.toNat ++ toBE 4 g.objLen ++ toBE 4 g.offset ++ toBE 2 g.data.length ++ toBE 2 0 ++
    toBE 4 g.check.toNat ++ g.data

/-- Reads the segment at the head of a segment area, whose header is whole; none when the walk of R194 fails there. -/
def readSegment (area : List Byte) : Option Segment :=
  match segKindOf (field area 0 1) with
  | none => none
  | some k =>
    let n := field area 32 2
    if decide (40 + n ≤ area.length) && decide (field area 24 4 ≤ Config.maxObject) &&
        (if k = .putPart then decide (n ≤ Config.maxPart) else n == 0) then
      some { kind := k, first := fieldBit area 1 0, last := fieldBit area 1 1, bucket := field32 area 4,
             key := field64 area 8, stamp := field64 area 16, objLen := field area 24 4, offset := field area 28 4,
             check := field32 area 36, data := (area.drop 40).take n }
    else none

/-- Walks a segment area (R194); none when it does not agree. The fuel is the area's length, more than its segments. -/
def walkSegments : Nat → List Byte → Option (List Segment)
  | 0, area => if area.isEmpty then some [] else none
  | fuel + 1, area =>
    if area.isEmpty then some []
    else if area.length < 40 then none
    else
      match readSegment area with
      | none => none
      | some g =>
        match walkSegments fuel (area.drop (40 + g.data.length)) with
        | none => none
        | some gs => some (g :: gs)

/-- A received span whose check and lengths agree. -/
structure SpanFrame where
  kind : SpanKind
  src : Nat
  dst : Nat
  seq : Word
  epoch : Word
  segs : List Segment
  deriving DecidableEq, Repr

/-- The span kind's message kind. -/
def SpanKind.code : SpanKind → Nat
  | .data => 0x20
  | .marker => 0x21

/-- Reads a span of the given kind; none when check 1 of R159 fails. -/
def readSpan (k : SpanKind) (p : List Byte) : Option SpanFrame :=
  let n := field p 14 2
  if decide (36 + n ≤ p.length) && (crc32c (p.take (32 + n)) == field32 p (32 + n)) && lengthAgrees p (36 + n) &&
      (field32 p 4 != 0) && (k == .data || (n == 0 && field p 12 2 == 0)) then
    match walkSegments n ((p.drop 32).take n) with
    | none => none
    | some gs =>
      if gs.length = field p 12 2 then
        some { kind := k, src := field p 2 1, dst := field p 3 1, seq := field32 p 4, epoch := field32 p 8, segs := gs }
      else none
  else none

/-- A span header (12.2). -/
def spanHeader (k : SpanKind) (src dst : BitVec 6) (seq epoch : Word) (count len : Nat) : List Byte :=
  toBE 1 k.code ++ toBE 1 0 ++ toBE 1 src.toNat ++ toBE 1 dst.toNat ++ toBE 4 seq.toNat ++ toBE 4 epoch.toNat ++
    toBE 2 count ++ toBE 2 len ++ toBE 16 0

/-- A span's payload: header, segment area, span check, padding. -/
def spanPayload (k : SpanKind) (src dst : BitVec 6) (seq epoch : Word) (count : Nat) (area : List Byte) : List Byte :=
  let covered := spanHeader k src dst seq epoch count area.length ++ area
  pad (covered ++ toBE 4 (crc32c covered).toNat)

/-! ## Receipts (7.6, 12.2) -/

/-- A receipt's fields. -/
structure ReceiptFrame where
  src : Nat
  dst : Nat
  through : Word
  epoch : Word
  faulted : Bool
  gaps : List Word
  deriving DecidableEq, Repr

/-- `n` 32-bit fields from byte `off` on. -/
def fields32 (p : List Byte) (off : Nat) : Nat → List Word
  | 0 => []
  | n + 1 => field32 p off :: fields32 p (off + 4) n

/-- Reads a receipt; none when check 1 or 2 of R113 fails. -/
def readReceipt (p : List Byte) : Option ReceiptFrame :=
  let n := field p 12 1
  if decide (13 ≤ p.length) && decide (n ≤ 8) && decide (20 + 4 * n ≤ p.length) &&
      (crc32c (p.take (16 + 4 * n)) == field32 p (16 + 4 * n)) && lengthAgrees p (20 + 4 * n) then
    some { src := field p 2 1, dst := field p 3 1, through := field32 p 4, epoch := field32 p 8, faulted := fieldBit p 1 0,
           gaps := fields32 p 16 n }
  else none

/-- A receipt's payload (12.2). -/
def receiptPayload (src dst : BitVec 6) (through epoch : Word) (faulted : Bool) (gaps : List Word) : List Byte :=
  let covered := toBE 1 0x22 ++ toBE 1 (bitByte faulted 0) ++ toBE 1 src.toNat ++ toBE 1 dst.toNat ++ toBE 4 through.toNat ++
    toBE 4 epoch.toNat ++ toBE 1 gaps.length ++ toBE 3 0 ++ gaps.flatMap fun g => toBE 4 g.toNat
  pad (covered ++ toBE 4 (crc32c covered).toNat)

/-! ## Probes (9.4, 12.2) -/

/-- The fields of a probe or probe reply. -/
structure ProbeFrame where
  openFlag : Bool
  src : Nat
  dst : Nat
  life : Word
  echo : Word
  deriving DecidableEq, Repr

/-- Reads a probe or probe reply; none when check 1 of R145 fails. Bits 7 to 1 of byte 1, which 12.2 leaves unnamed, are not read
(log entry 42). -/
def readProbe (p : List Byte) : Option ProbeFrame :=
  if decide (16 ≤ p.length) && (crc32c (p.take 12) == field32 p 12) && lengthAgrees p 16 then
    some { openFlag := fieldBit p 1 0, src := field p 2 1, dst := field p 3 1, life := field32 p 4, echo := field32 p 8 }
  else none

/-- The payload of a probe (kind 0x23) or a probe reply (kind 0x24), bits 7 to 1 of byte 1 zero (log entry 42). -/
def probePayload (kind : Nat) (openFlag : Bool) (src dst : BitVec 6) (life echo : Word) : List Byte :=
  let covered := toBE 1 kind ++ toBE 1 (bitByte openFlag 0) ++ toBE 1 src.toNat ++ toBE 1 dst.toNat ++ toBE 4 life.toNat ++
    toBE 4 echo.toNat
  pad (covered ++ toBE 4 (crc32c covered).toNat)

/-! ## Control parcels (12.3) -/

/-- The five actions of ROUTE. -/
inductive RouteAction where
  | openRoute
  | closeRoute
  | pause
  | resume
  | clearImpaired
  deriving DecidableEq, Repr

/-- A control parcel that can be read. `counters` carries the group code; a code of 24 to 31 can be read and is refused. -/
inductive Command where
  | select (t : TableName) (write : Bool) (index : Nat)
  | stage (words : List Word)
  | fetch (count : Nat)
  | turn
  | route (n : Nat) (action : RouteAction)
  | status
  | counters (group : Nat) (clear : Bool)
  | events (mask clear : BitVec 13)
  | restart
  deriving DecidableEq, Repr

/-- A table's code. -/
def TableName.code : TableName → Nat
  | .windows => 1
  | .placementMap => 2
  | .policyStandby => 3
  | .policyActive => 4
  | .routes => 5
  | .localEntry => 6

/-- The table of a code. -/
def tableOf : Nat → Option TableName
  | 1 => some .windows
  | 2 => some .placementMap
  | 3 => some .policyStandby
  | 4 => some .policyActive
  | 5 => some .routes
  | 6 => some .localEntry
  | _ => none

/-- The ROUTE action of a code. -/
def actionOf : Nat → Option RouteAction
  | 1 => some .openRoute
  | 2 => some .closeRoute
  | 3 => some .pause
  | 4 => some .resume
  | 5 => some .clearImpaired
  | _ => none

/-- Reads the arguments `a` of the command of code `c`; none for an unknown command, an argument length that is not the
command's, a table, mode or action that is not listed, or a word count outside the command's range (R177). Bits 7 to 1 of
COUNTERS' byte 1, which 12.3 leaves unnamed, are not read (log entry 42). -/
def readArguments (c : Nat) (a : List Byte) : Option Command :=
  match c with
  | 1 =>
    if a.length = 4 then
      match tableOf (field a 0 1), field a 1 1 with
      | some t, 0 => some (.select t false (field a 2 2))
      | some t, 1 => some (.select t true (field a 2 2))
      | _, _ => none
    else none
  | 2 => if 4 ≤ a.length ∧ a.length ≤ 256 ∧ a.length % 4 = 0 then some (.stage (fields32 a 0 (a.length / 4))) else none
  | 3 => if a.length = 2 ∧ 1 ≤ field a 0 2 ∧ field a 0 2 ≤ 256 then some (.fetch (field a 0 2)) else none
  | 4 => if a.length = 0 then some .turn else none
  | 5 => if a.length = 2 then (actionOf (field a 1 1)).map (.route (field a 0 1)) else none
  | 6 => if a.length = 0 then some .status else none
  | 7 =>
    if a.length = 2 ∧ (field a 0 1 < 4 ∨ (16 ≤ field a 0 1 ∧ field a 0 1 < 32)) then
      some (.counters (field a 0 1) (fieldBit a 1 0))
    else none
  | 8 =>
    if a.length = 4 then some (.events (BitVec.ofNat 13 (field a 0 2)) (BitVec.ofNat 13 (field a 2 2))) else none
  | 9 => if a.length = 0 then some .restart else none
  | _ => none

/-- Reads a control parcel; none when it cannot be read (R177). -/
def readParcel (p : List Byte) : Option Command :=
  let n := field p 4 2
  if decide (8 ≤ p.length) && lengthAgrees p (8 + n) then readArguments (field p 1 1) ((p.drop 8).take n) else none

/-! ## Status and alert parcels (12.3) -/

/-- The refusal reasons, in the order of the reason table of 11.1. -/
inductive Reason where
  | badCommand
  | outOfRange
  | wrongMode
  | standbyLocked
  | routeActive
  | turnPending
  | notClosed
  | noRegion
  | unconfigured
  | regionConflict
  | routeClosed
  | notImpaired
  | paused
  deriving DecidableEq, Repr

/-- The reason's number, from 1. -/
def Reason.code : Reason → Nat
  | .badCommand => 1
  | .outOfRange => 2
  | .wrongMode => 3
  | .standbyLocked => 4
  | .routeActive => 5
  | .turnPending => 6
  | .notClosed => 7
  | .noRegion => 8
  | .unconfigured => 9
  | .regionConflict => 10
  | .routeClosed => 11
  | .notImpaired => 12
  | .paused => 13

/-- The verdict of a status parcel (R178). A PARTIAL verdict carries the reason OUT_OF_RANGE when words were refused at
the end of the table (R181). -/
inductive ParcelVerdict where
  | done
  | refused (reason : Reason)
  | partDone (reason : Option Reason)
  deriving DecidableEq, Repr

/-- The verdict's code. -/
def ParcelVerdict.code : ParcelVerdict → Nat
  | .done => 0
  | .refused _ => 1
  | .partDone _ => 2

/-- The reason's code, 0 when there is none. -/
def ParcelVerdict.reasonCode : ParcelVerdict → Nat
  | .done => 0
  | .refused r => r.code
  | .partDone none => 0
  | .partDone (some r) => r.code

/-- A status parcel's payload (12.3), the unnamed bits of byte 6 zero (log entry 42). -/
def statusPayload (command tag : Nat) (v : ParcelVerdict) (discard : Bool) (results : List Byte) : List Byte :=
  pad (toBE 1 0x31 ++ toBE 1 command ++ toBE 2 tag ++ toBE 1 v.code ++ toBE 1 v.reasonCode ++ toBE 1 (bitByte discard 0) ++
    toBE 1 0 ++ toBE 2 results.length ++ results)

/-- An alert parcel's payload (12.3). -/
def alertPayload (classes : BitVec 13) (now : Nat) : List Byte :=
  pad (toBE 1 0x32 ++ toBE 1 0 ++ toBE 2 classes.toNat ++ toBE 8 now)

/-- The route state's code (12.3). -/
def RouteState.code : RouteState → Nat
  | .closed => 0
  | .opening => 1
  | .acquire => 2
  | .track => 3
  | .impaired => 4

/-- The bank's code (12.3). -/
def Bank.code : Bank → Nat
  | .a => 0
  | .b => 1

/-- The placement fault kind's code (12.3). -/
def FaultKind.code : FaultKind → Nat
  | .invalidEntry => 1
  | .beyondMap => 2

/-! ## Table entry words (12.4) -/

/-- The word at position `i` of an entry. -/
def wordAt (ws : List Word) (i : Nat) : Word := ws.getD i 0

/-- A flag as a word bit. -/
def flagWord (b : Bool) (i : Nat) : Word := if b then 1#32 <<< i else 0

/-- The words of a window. -/
def Window.words (w : Window) : List Word :=
  [flagWord w.enable 31 ||| flagWord w.mapped 30 ||| w.k.setWidth 32, w.base, w.policy.setWidth 32,
   (w.mapBase.setWidth 32 <<< 16) ||| w.grain.setWidth 32]

/-- The window of four words, its reserved bits dropped. -/
def Window.ofWords (ws : List Word) : Window :=
  { enable := (wordAt ws 0).getLsbD 31, mapped := (wordAt ws 0).getLsbD 30, base := wordAt ws 1,
    k := (wordAt ws 0).extractLsb' 0 6, policy := (wordAt ws 2).extractLsb' 0 8,
    mapBase := (wordAt ws 3).extractLsb' 16 14, grain := (wordAt ws 3).extractLsb' 0 5 }

/-- The word of a map entry. -/
def MapEntry.word (e : MapEntry) : Word := flagWord e.valid 31 ||| flagWord e.hold 30 ||| e.policy.setWidth 32

/-- The map entry of a word, its reserved bits dropped. -/
def MapEntry.ofWord (w : Word) : MapEntry :=
  { valid := w.getLsbD 31, hold := w.getLsbD 30, policy := w.extractLsb' 0 8 }

/-- The word of a destination. -/
def Dest.word (d : Dest) : Word := flagWord d.erases 9 ||| flagWord d.required 8 ||| BitVec.ofNat 32 d.route.val

/-- The destination of a word, its reserved bits dropped. -/
def Dest.ofWord (w : Word) : Dest :=
  { route := ⟨(w.extractLsb' 0 3).toNat, (w.extractLsb' 0 3).isLt⟩, required := w.getLsbD 8, erases := w.getLsbD 9 }

/-- The six words of a policy entry; an absent one is all zero (R36). -/
def policyWords : Option Policy → List Word
  | none => [0, 0, 0, 0, 0, 0]
  | some p =>
    let d i := ((p.dests[i]?).map Dest.word).getD 0
    [flagWord true 31 ||| flagWord p.early 30 ||| (p.cls.setWidth 32 <<< 28) ||| (BitVec.ofNat 32 (p.quorum - 1) <<< 24) |||
       (BitVec.ofNat 32 (p.dests.length - 1) <<< 16), d 0, d 1, d 2, d 3, 0]

/-- The policy of six words whose valid flag is set: destination entries up to the count, reserved bits dropped. -/
def Policy.ofWords (ws : List Word) : Policy :=
  let w := wordAt ws 0
  { cls := w.extractLsb' 28 2, early := w.getLsbD 30, quorum := (w.extractLsb' 24 2).toNat + 1,
    dests := (((ws.drop 1).take 4).take ((w.extractLsb' 16 2).toNat + 1)).map Dest.ofWord }

/-- A station address from its high half and low word. -/
def addrOf (high : BitVec 16) (low : Word) : Addr := high ++ low

/-- The high half of a station address. -/
def addrHigh (a : Addr) : BitVec 16 := a.extractLsb' 32 16

/-- The low word of a station address. -/
def addrLow (a : Addr) : Word := a.extractLsb' 0 32

/-- The eight words of a route configuration. -/
def RouteCfg.words (c : RouteCfg) : List Word :=
  [c.region.setWidth 32, (addrHigh c.addr).setWidth 32, addrLow c.addr, c.ceil.setWidth 32, c.floor.setWidth 32,
   c.startRate.setWidth 32, (c.burst.setWidth 32 <<< 23) ||| c.srttInit.setWidth 32,
   (c.probePeriod.setWidth 32 <<< 17) ||| c.rtoPad.setWidth 32]

/-- The route configuration of eight words, its reserved bits dropped. -/
def RouteCfg.ofWords (ws : List Word) : RouteCfg :=
  { region := (wordAt ws 0).extractLsb' 0 6, addr := addrOf ((wordAt ws 1).extractLsb' 0 16) (wordAt ws 2),
    ceil := (wordAt ws 3).extractLsb' 0 17, floor := (wordAt ws 4).extractLsb' 0 17,
    startRate := (wordAt ws 5).extractLsb' 0 17, burst := (wordAt ws 6).extractLsb' 23 9,
    srttInit := (wordAt ws 6).extractLsb' 0 21, probePeriod := (wordAt ws 7).extractLsb' 17 14,
    rtoPad := (wordAt ws 7).extractLsb' 0 17 }

/-- Two 16-bit halves as a word. -/
def halves (high low : BitVec 16) : Word := high ++ low

/-- The eight words of the LOCAL entry; the settings with a divisor are held divided by it (12.4). -/
def Settings.words (c : Settings) : List Word :=
  [halves c.frameType (addrHigh c.clusterAddr), addrLow c.clusterAddr,
   halves (BitVec.ofNat 16 c.inboundReserve) (addrHigh c.longAddr), addrLow c.longAddr,
   halves (BitVec.ofNat 16 c.poolLowMark) (addrHigh c.mgmtStation), addrLow c.mgmtStation,
   (BitVec.ofNat 32 (c.epochPeriod / 10) <<< 19) ||| (BitVec.ofNat 32 (c.deliveryWait / 10) <<< 6) ||| c.localRegion.setWidth 32,
   (BitVec.ofNat 32 (c.cutThrough / 65536) <<< 21) ||| (BitVec.ofNat 32 (c.spanHold / 10) <<< 10) |||
     BitVec.ofNat 32 (c.receiptDelay / 10)]

/-- The settings of the eight words of a LOCAL entry. -/
def Settings.ofWords (ws : List Word) : Settings :=
  { frameType := (wordAt ws 0).extractLsb' 16 16, clusterAddr := addrOf ((wordAt ws 0).extractLsb' 0 16) (wordAt ws 1),
    inboundReserve := ((wordAt ws 2).extractLsb' 16 16).toNat,
    longAddr := addrOf ((wordAt ws 2).extractLsb' 0 16) (wordAt ws 3),
    poolLowMark := ((wordAt ws 4).extractLsb' 16 16).toNat,
    mgmtStation := addrOf ((wordAt ws 4).extractLsb' 0 16) (wordAt ws 5),
    epochPeriod := ((wordAt ws 6).extractLsb' 19 13).toNat * 10, deliveryWait := ((wordAt ws 6).extractLsb' 6 13).toNat * 10,
    localRegion := (wordAt ws 6).extractLsb' 0 6, cutThrough := ((wordAt ws 7).extractLsb' 21 11).toNat * 65536,
    spanHold := ((wordAt ws 7).extractLsb' 10 11).toNat * 10, receiptDelay := ((wordAt ws 7).extractLsb' 0 10).toNat * 10 }

end Sys2Proof.Machine
end

