-- ==== Sys2Proof/Machine/Ops.lean ====
section
/-! DEFINITION. The named operations every family shares: reads and writes of routes, lanes, records and assemblies, the
cluster output queue (R4), alerts (R189), retention memory and the extent pool (chapter 5). -/

namespace Sys2Proof.Machine

/-! ## Routes, lanes -/

/-- Route `r`. -/
def State.route (s : State) (r : RouteId) : Route := s.routes[r]

/-- Writes route `r`. -/
def State.setRoute (s : State) (r : RouteId) (x : Route) : State := { s with routes := s.routes.set r.val x r.isLt }

/-- Changes route `r`. -/
def State.updRoute (s : State) (r : RouteId) (f : Route → Route) : State := s.setRoute r (f (s.route r))

/-- Changes what the Route Controller holds for route `r`. -/
def State.updCtl (s : State) (r : RouteId) (f : Control → Control) : State :=
  s.updRoute r fun x => { x with ctl := f x.ctl }

/-- Changes the pacing state of route `r`. -/
def State.updPace (s : State) (r : RouteId) (f : Pacing → Pacing) : State :=
  s.updRoute r fun x => { x with pace := f x.pace }

/-- Changes the transmit state of route `r`. -/
def State.updTx (s : State) (r : RouteId) (f : Transmit → Transmit) : State :=
  s.updRoute r fun x => { x with tx := f x.tx }

/-- Changes the queues and buffers of route `r`. -/
def State.updBld (s : State) (r : RouteId) (f : Builder → Builder) : State :=
  s.updRoute r fun x => { x with bld := f x.bld }

/-- Changes the inbound state of route `r`. -/
def State.updInb (s : State) (r : RouteId) (f : Inbound → Inbound) : State :=
  s.updRoute r fun x => { x with inb := f x.inb }

/-- Ingest lane `l`. -/
def State.lane (s : State) (l : LaneId) : Lane := s.lanes[l]

/-- Writes ingest lane `l`. -/
def State.setLane (s : State) (l : LaneId) (x : Lane) : State := { s with lanes := s.lanes.set l.val x l.isLt }

/-- Delivery lane `l`. -/
def State.dlane (s : State) (l : DeliveryLaneId) : DLane := s.dlanes[l]

/-- Writes delivery lane `l`. -/
def State.setDLane (s : State) (l : DeliveryLaneId) (x : DLane) : State :=
  { s with dlanes := s.dlanes.set l.val x l.isLt }

/-- Runs `f` over a list in order, the state threaded through. -/
def State.each {α : Type} (s : State) (xs : List α) (f : State → α → State) : State := xs.foldl f s

/-- Every route in number order. -/
def allRoutes : List RouteId := List.finRange 8

/-- Every ingest lane in number order. -/
def allLanes : List LaneId := List.finRange 64

/-- Every delivery lane in number order. -/
def allDLanes : List DeliveryLaneId := List.finRange 16

/-- The route of a region (check 3 of R141 makes it one at most). Region 0 names no route (R140). -/
def State.routeOfRegion (s : State) (region : Nat) : Option RouteId :=
  if region = 0 then none else allRoutes.find? fun r => (s.route r).cfg.region.toNat == region

/-! ## Ports (R1, R2) -/

/-- The station address in force on a port. -/
def State.station (s : State) : Port → Addr
  | .cluster => s.settings.clusterAddr
  | .longhaul => s.settings.longAddr

/-- The part takes a frame that is addressed to the port's station and carries `FRAME_TYPE` (R1). -/
def State.takes (s : State) (p : Port) (f : Frame) : Bool := f.dst == s.station p && f.ftype == s.settings.frameType

/-- The port takes the frame and its message kind is `k`: the step of that kind's row (R2). -/
def State.takesKind (s : State) (p : Port) (k : Byte) (f : Frame) : Bool := s.takes p f && f.kind == some k

/-- A frame of the part's own on a port: the port's station address as source, and `FRAME_TYPE` (R1). -/
def State.ownFrame (s : State) (p : Port) (dst : Addr) (payload : List Byte) : Frame :=
  { dst := dst, src := s.station p, ftype := s.settings.frameType, payload := payload }

/-! ## The cluster output queue (R4) -/

/-- The free places of the cluster output queue. -/
def State.outRoom (s : State) : Nat := Config.outPlaces - s.outQ.length

/-- Places a frame in the cluster output queue; with no place free it is dropped and counted CLUSTER_OUT_DROP. -/
def State.placeOut (s : State) (dst : Addr) (payload : List Byte) : State :=
  if s.outQ.length < Config.outPlaces then { s with outQ := s.outQ ++ [{ dst := dst, payload := payload }] }
  else s.count (.ports .clusterOutDrop)

/-! ## Alerts (R189) -/

/-- Sends one alert parcel with the classes latched and enabled; with `MGMT_STATION` at 0 none is made. That ALERTS_SENT counts an alert
which the full queue drops as well is log entry 43. -/
def State.sendAlert (s : State) : State :=
  if s.settings.mgmtStation = 0 then s
  else (s.placeOut s.settings.mgmtStation (alertPayload (s.latches &&& s.mask) s.now)).count (.management .alertsSent)

/-- The end of an event that began at `before`: one alert if it took an enabled class from clear to latched (R189). -/
def State.alertFrom (before s : State) : State :=
  if s.latches &&& ~~~before.latches &&& s.mask = 0 then s else s.sendAlert

/-! ## Records and the key index (4.1, 4.3) -/

/-- Record `n`, if its slot is not free. -/
def State.record? (s : State) (n : Nat) : Option Record := Table.find s.records n

/-- Writes record `n`. -/
def State.setRecord (s : State) (n : Nat) (x : Record) : State := { s with records := Table.insert s.records n x }

/-- Changes record `n`, if its slot is not free. -/
def State.updRecord (s : State) (n : Nat) (f : Record → Record) : State :=
  match s.record? n with
  | none => s
  | some x => s.setRecord n (f x)

/-- The list of record numbers of a key, oldest version first. -/
def State.keyList (s : State) (key : Digest) : List Nat := Table.getD s.keyIndex [] key.toNat

/-- Writes the list of a key; a key whose list is empty leaves the index (R49). -/
def State.setKeyList (s : State) (key : Digest) (xs : List Nat) : State :=
  { s with keyIndex := Table.setD s.keyIndex [] key.toNat xs }

/-- The record's slot on a route. -/
def Record.slotOn (x : Record) (r : RouteId) : Option Slot := x.slots.find? fun sl => sl.route == r

/-- Changes the record's slot on a route. -/
def Record.updSlot (x : Record) (r : RouteId) (f : Slot → Slot) : Record :=
  { x with slots := x.slots.map fun sl => if sl.route = r then f sl else sl }

/-- The state of the record's slot on a route, if it has one. -/
def Record.slotState (x : Record) (r : RouteId) : Option SlotState := (x.slotOn r).map (·.state)

/-- Terminal slot states never change again (R48). -/
def SlotState.terminal : SlotState → Bool
  | .settled | .faulted | .superseded | .cancelled | .abandoned => true
  | .waiting | .queued | .sent | .receipted => false

/-- Every slot of the record is terminal. -/
def Record.allTerminal (x : Record) : Bool := x.slots.all (·.state.terminal)

/-! ## Retention memory (5.1, 5.2, R15, R72) -/

/-- The byte at an address of the extent region; none where nothing was written (R70). -/
def Mem.read (m : List Host.Cell) (a : Nat) : Option Byte := Table.find m a

/-- Writes one byte. -/
def Mem.write (m : List Host.Cell) (a : Nat) (b : Byte) : List Host.Cell := Table.insert m a b

/-- The canonical form of retention memory: addresses strictly rising. No byte is one an unlisted address reads as,
because an unlisted address reads as none. -/
def Memory.wf (m : List Host.Cell) : Bool := Table.rising m

/-- The address of body byte `p` in an extent list: extent floor(p / 65,536) at position p mod 65,536 (R15). -/
def bodyAddr (extents : List Nat) (p : Nat) : Option Nat :=
  (extents[p / Config.extentBytes]?).map fun e => e * Config.extentBytes + p % Config.extentBytes

/-- Writes a payload at body position `p`. -/
def writeBody (m : List Host.Cell) (extents : List Nat) (p : Nat) : List Byte → List Host.Cell
  | [] => m
  | b :: bs =>
    writeBody (match bodyAddr extents p with
      | some a => Mem.write m a b
      | none => m) extents (p + 1) bs

/-- Reads `n` body bytes from position `p`; none if one of them was never written. -/
def readBody (m : List Host.Cell) (extents : List Nat) (p : Nat) : Nat → Option (List Byte)
  | 0 => some []
  | n + 1 =>
    match bodyAddr extents p with
    | none => none
    | some a =>
      match Mem.read m a, readBody m extents (p + 1) n with
      | some b, some bs => some (b :: bs)
      | _, _ => none

/-! ## The extent pool (5.3 to 5.6) -/

/-- The extents `n` to `n + k − 1`. -/
def extentRun (n : Nat) : Nat → List Nat
  | 0 => []
  | k + 1 => n :: extentRun (n + 1) k

/-- The free list, head first. -/
def Pool.toList (p : Pool) : List Nat := extentRun p.fresh (Config.extents - p.fresh) ++ p.returned

/-- The count of free extents. -/
def Pool.count (p : Pool) : Nat := (Config.extents - p.fresh) + p.returned.length

/-- Takes the first `n` extents of the free list: those not yet handed out, then those returned longest ago. -/
def Pool.take (p : Pool) (n : Nat) : List Nat × Pool :=
  let k := min n (Config.extents - p.fresh)
  (extentRun p.fresh k ++ p.returned.take (n - k), { fresh := p.fresh + k, returned := p.returned.drop (n - k) })

/-- Appends released extents at the tail, in their order (R77). -/
def Pool.release (p : Pool) (xs : List Nat) : Pool := { p with returned := p.returned ++ xs }

/-- A pool that is all free, in ascending order (R73). -/
def Pool.full : Pool := { fresh := 0, returned := [] }

/-- The extents a body of length `n` occupies: ceil(n / 65,536). -/
def extentsFor (n : Nat) : Nat := (n + (Config.extentBytes - 1)) / Config.extentBytes

/-- The free count is below `POOL_LOW_MARK`: the lasting condition of POOL_LOW (R78). -/
def State.poolLow (s : State) : Bool := decide (s.pool.count < s.settings.poolLowMark)

/-- The test of R78, made after every grant and every LOCAL commit. -/
def State.testPoolLow (s : State) : State := if s.poolLow then s.latch .poolLow else s

/-- Returns extents to the pool. -/
def State.freeExtents (s : State) (xs : List Nat) : State := { s with pool := s.pool.release xs }

/-- An outbound request for `n` extents is granted when it leaves at least `INBOUND_RESERVE` free (R74). -/
def State.grantsOut (s : State) (n : Nat) : Bool := decide (s.settings.inboundReserve + n ≤ s.pool.count)

/-- An inbound request for `n` extents is granted when that many are free (R75). -/
def State.grantsIn (s : State) (n : Nat) : Bool := decide (n ≤ s.pool.count)

/-- A grant of `n` extents: they leave the head of the free list, and the pool-low test follows. -/
def State.grant (s : State) (n : Nat) : List Nat × State :=
  let g := s.pool.take n
  (g.1, State.testPoolLow { s with pool := g.2 })

end Sys2Proof.Machine
end

