-- ==== Sys2Proof/Machine/Placement.lean ====
section
/-! DEFINITION. The Placement Unit (chapter 2) and the Policy Store (chapter 3): classification of a bucket, the policy
step, and the checks of window, map and policy entries. -/

namespace Sys2Proof.Machine

/-! ## Placement (R22 to R30) -/

/-- The window hits the bucket (R22). -/
def Window.hits (w : Window) (b : Word) : Bool :=
  w.enable && decide (w.base.toNat ≤ b.toNat) && decide (b.toNat < w.base.toNat + 2 ^ w.k.toNat)

/-- The lowest-numbered window that hits the bucket (R23). -/
def State.decidingWindow (s : State) (b : Word) : Option (Fin 8) := (List.finRange 8).find? fun i => (s.windows[i]).hits b

/-- The map index a MAPPED window forms (R25). -/
def Window.mapIndex (w : Window) (b : Word) : Nat := w.mapBase.toNat + (b.toNat - w.base.toNat) / 2 ^ w.grain.toNat

/-- The map entry at an index. -/
def State.mapEntry (s : State) (i : Nat) : MapEntry := Table.getD s.pmap MapEntry.reset i

/-- Raises CONFIG_FAULT (R29): a clear latch sets and the fault record is filled; a set latch keeps its first fault. -/
def State.raiseConfigFault (s : State) (f : FaultRecord) : State :=
  if s.latched .configFault then s else { s.latch .configFault with faultRecord := some f }

/-- Classifies a bucket (R23 to R30): a refusal's verdict, or a policy index. -/
def State.classify (s : State) (b : Word) : (Verdict ⊕ BitVec 8) × State :=
  match s.decidingWindow b with
  | none => (.inl .localOnly, s.count (.ingest .placeNoWindow))
  | some i =>
    let w := s.windows[i]
    if w.mapped then
      let m := w.mapIndex b
      let fault k : FaultRecord := { kind := k, window := i.val, bucket := b, index := m }
      if Config.mapEntries ≤ m then
        (.inl .unplaced, (s.count (.ingest .placeBeyondMap)).raiseConfigFault (fault .beyondMap))
      else
        let e := s.mapEntry m
        if !e.valid then (.inl .unplaced, (s.count (.ingest .placeInvalid)).raiseConfigFault (fault .invalidEntry))
        else if e.hold then (.inl .held, s.count (.ingest .placeHeld))
        else (.inr e.policy, s)
    else (.inr w.policy, s)

/-! ## Entry checks (R21, R27) -/

/-- The checks of a window entry (R21). The widths of map base and grain keep theirs. -/
def windowOk (ws : List Word) : Bool :=
  let w := Window.ofWords ws
  decide (w.k.toNat ≤ 32) && w.base.toNat % 2 ^ w.k.toNat == 0 && wordAt ws 0 &&& 0x3FFFFFC0#32 == 0 &&
    wordAt ws 2 &&& 0xFFFFFF00#32 == 0 && wordAt ws 3 &&& 0xC000FFE0#32 == 0

/-- The checks of a map word (R27, and 12.4 for a word whose valid bit is clear). -/
def mapOk (w : Word) : Bool := w &&& 0x3FFFFF00#32 == 0 && ((MapEntry.ofWord w).valid || w == 0)

/-! ## The Policy Store -/

/-- The bank of the other role. -/
def Bank.other : Bank → Bank
  | .a => .b
  | .b => .a

/-- A physical bank. -/
def State.bank (s : State) : Bank → Table Policy
  | .a => s.bankA
  | .b => s.bankB

/-- Writes an entry of a physical bank; an absent one is not listed. -/
def State.setPolicy (s : State) (bk : Bank) (i : Nat) (p : Option Policy) : State :=
  let t := match p with
    | some p => Table.insert (s.bank bk) i p
    | none => Table.erase (s.bank bk) i
  match bk with
  | .a => { s with bankA := t }
  | .b => { s with bankB := t }

/-- The lookup of a policy index in the ACTIVE bank (R41). -/
def State.activePolicy (s : State) (i : BitVec 8) : Option Policy := Table.find (s.bank s.active) i.toNat

/-- The checks of a policy entry: R35 with the valid flag set, R36 with it clear. -/
def policyOk (ws : List Word) : Bool :=
  if (wordAt ws 0).getLsbD 31 then
    let p := Policy.ofWords ws
    decide ((p.dests.map (·.route)).Nodup) && p.dests.any (·.required) &&
      decide (p.quorum ≤ p.dests.countP (·.required)) && wordAt ws 0 &&& 0x0CFCFFFF#32 == 0 &&
      (((ws.drop 1).take 4).take p.dests.length).all (fun w => w &&& 0xFFFFFCF8#32 == 0) &&
      (((ws.drop 1).take 4).drop p.dests.length).all (· == 0) && wordAt ws 5 == 0
  else ws.all (· == 0)

/-- The policy entry of words that pass. -/
def policyOf (ws : List Word) : Option Policy := if (wordAt ws 0).getLsbD 31 then some (Policy.ofWords ws) else none

/-- The copy's quorum for an ERASE (R43): the smaller of the entry's and the number of required destinations kept. -/
def Policy.eraseQuorum (p : Policy) : Nat := min p.quorum ((p.dests.filter (·.erases)).countP (·.required))

/-- The turn at an epoch tick (R39). -/
def State.policyTurn (s : State) : State :=
  if s.armed then { s with active := s.active.other, generation := s.generation + 1, armed := false } else s

end Sys2Proof.Machine
end

