-- ==== Sys2Proof/Machine/Queues.lean ====
section
/-! DEFINITION. The queues of a route and the closing and hand-over of its spans (6.1, 6.2, 6.5, 6.6): what the Record
Manager, the Span Builder and the Route Controller all use. -/

namespace Sys2Proof.Machine

/-- A QUEUED PUT record has available bytes on route `r` (R88): bytes taken and not yet packed, or no body at all. -/
def Record.available (x : Record) (r : RouteId) : Bool :=
  match x.kind, x.slotOn r with
  | .put, some sl => sl.state == .queued && (decide (sl.packed < x.ingested) || x.length == 0)
  | _, _ => false

/-- Record `n` can be packed on route `r`. -/
def State.packable (s : State) (r : RouteId) (n : Nat) : Bool := (s.record? n).any fun x => x.available r

/-- The first packable record of a class queue, in queue order. -/
def State.firstPackable (s : State) (r : RouteId) (q : List Nat) : Option Nat := q.find? (s.packable r)

/-- The item chosen next (R87): the head of the control queue, else the first packable record of the lowest-numbered
class queue that has one. -/
def State.nextItem (s : State) (r : RouteId) : Option (CtrlItem ⊕ Nat) :=
  match (s.route r).bld.ctrlQ with
  | item :: _ => some (.inl item)
  | [] => (((s.route r).bld.classQ.toList.map (s.firstPackable r)).findSome? id).map .inr

/-- The route has packable work (R86). -/
def State.hasWork (s : State) (r : RouteId) : Bool := (s.nextItem r).isSome

/-- Appends a record to the tail of its class queue (R82). -/
def Builder.joinClass (b : Builder) (c : BitVec 2) (n : Nat) : Builder :=
  { b with classQ := b.classQ.set c.toNat (b.classQ[c.toNat] ++ [n]) c.isLt }

/-- Removes a record from its class queue; the items behind it move up (R84). -/
def Builder.leaveClass (b : Builder) (c : BitVec 2) (n : Nat) : Builder :=
  { b with classQ := b.classQ.set c.toNat (b.classQ[c.toNat].filter (· != n)) c.isLt }

/-- Appends an item to the tail of the control queue (R83). -/
def Builder.joinControl (b : Builder) (k : ItemKind) (n : Nat) : Builder := { b with ctrlQ := b.ctrlQ ++ [{ kind := k, record := n }] }

/-- Removes a record's ERASE item from the control queue (R83). -/
def Builder.leaveControl (b : Builder) (n : Nat) : Builder :=
  { b with ctrlQ := b.ctrlQ.filter fun i => !(i.kind == .erase && i.record == n) }

/-- A span's wire length (R96): 54 + segment area length, and 64 for a marker. -/
def Span.wire (sp : Span) : Nat :=
  match sp.kind with
  | .data => 54 + sp.area.length
  | .marker => 64

/-- The marker span of epoch `e` on a route (R96). -/
def markerSpan (src dst : BitVec 6) (e : Word) : Span :=
  { Span.empty with kind := .marker, epoch := e, srcRegion := src, dstRegion := dst }

/-- The hand-over (R97): into an empty READY buffer goes the CLOSED span, else a pending marker. -/
def State.handOver (s : State) (r : RouteId) : State :=
  let b := (s.route r).bld
  match b.ready, b.fill, b.marker with
  | some _, _, _ => s
  | none, .closed, _ =>
    s.updBld r fun b => { b with ready := some b.fillSpan, fill := .empty, fillSpan := Span.empty }
  | none, _, some e =>
    (s.updBld r fun b => { b with ready := some (markerSpan s.settings.localRegion (s.route r).cfg.region e), marker := none }).countRoute
      r .markersBuilt
  | none, _, none => s

/-- The FILLING span closes (R96) and the hand-over is tried. The hold start becomes absent at every close: R94 says so of a close
by hold, and for a close by room, whose span may wait CLOSED behind READY, it is log entry 41. -/
def State.closeSpan (s : State) (r : RouteId) : State :=
  (s.updBld r fun b =>
    { b with
      fill := .closed
      fillSpan := { b.fillSpan with srcRegion := s.settings.localRegion, dstRegion := (s.route r).cfg.region }
      holdStart := none }).handOver r

/-- The hold of the OPEN FILLING span has passed (R94). -/
def State.holdPassed (s : State) (r : RouteId) : Bool :=
  (s.route r).bld.fill == .filling && (s.route r).bld.holdStart.any fun t => decide (t + s.settings.spanHold ≤ s.now)

/-- The hold test (R94): an OPEN span without packable work whose hold has passed closes by hold. -/
def State.holdTest (s : State) (r : RouteId) : State :=
  if s.holdPassed r && !s.hasWork r then (s.countRoute r .spansClosedHold).closeSpan r else s

/-- The hold test after a change to the route's queues or records, if the packable work ran out by it (R94). -/
def State.holdTestAfter (before s : State) (r : RouteId) : State :=
  if before.hasWork r && !s.hasWork r then s.holdTest r else s

/-- A marker request (R95): an OPEN span closes, its hold start absent from then on (log entry 41), the marker becomes pending,
the hand-over is tried. -/
def State.requestMarker (s : State) (r : RouteId) (e : Word) : State :=
  let s1 := if (s.route r).bld.fill = .filling then
      (s.updBld r fun b =>
        { b with
          fill := .closed
          fillSpan := { b.fillSpan with srcRegion := s.settings.localRegion, dstRegion := (s.route r).cfg.region }
          holdStart := none }).countRoute r .spansClosedMarker
    else s
  (s1.updBld r fun b => { b with marker := some e }).handOver r

end Sys2Proof.Machine
end

