-- ==== Sys2Proof/Machine/Records.lean ====
section
/-! DEFINITION. The Record Manager (chapter 4): records and their route slots, creation and withdrawal, eligibility and
supersede, sealing and failure, closing notices, freeing, and what a route close or a rebase does to slots. -/

namespace Sys2Proof.Machine

/-! ## Slots and outcomes -/

/-- The void reason of a slot that becomes terminal in a state (R48); none for SETTLED. -/
def SlotState.reason : SlotState → Option VoidReason
  | .faulted => some .faulted
  | .superseded => some .superseded
  | .cancelled => some .cancelled
  | .abandoned => some .abandoned
  | .waiting | .queued | .sent | .receipted | .settled => none

/-- The counter of a slot that becomes terminal in a state (R69). -/
def SlotState.counter : SlotState → Option IngestCounter
  | .settled => some .slotSettled
  | .faulted => some .slotFaulted
  | .superseded => some .slotSuperseded
  | .cancelled => some .slotCancelled
  | .abandoned => some .slotAbandoned
  | .waiting | .queued | .sent | .receipted => none

/-- Counts a slot's new terminal state. -/
def State.countSlot (s : State) (st : SlotState) : State :=
  match st.counter with
  | some c => s.count (.ingest c)
  | none => s

/-- The number of required slots in SETTLED. -/
def Record.settledRequired (x : Record) : Nat := x.slots.countP fun sl => sl.required && sl.state == .settled

/-- The number of required slots not terminal. -/
def Record.openRequired (x : Record) : Nat := x.slots.countP fun sl => sl.required && !sl.state.terminal

/-- The LANDED condition (R66). -/
def Record.landed (x : Record) : Bool := decide (x.quorum ≤ x.settledRequired)

/-- The VOIDED condition (R66). -/
def Record.voided (x : Record) : Bool := decide (x.settledRequired + x.openRequired < x.quorum)

/-- The outcome check (R66) of `x`, which was `before` until a required slot ended for `reason`. An outcome once fixed
stays. Where VOIDED held already before the change, slots made ABANDONED at creation made it hold (log entry 6). -/
def Record.fixOutcome (before x : Record) (reason : VoidReason) : Record :=
  if x.outcome.isSome then x
  else if x.landed then { x with outcome := some .landed }
  else if x.voided then { x with outcome := some (.voided (if before.voided then .abandoned else reason)) }
  else x

/-- The outcome check at the creation of an ERASE record and at a SEAL (R66). -/
def State.checkOutcome (s : State) (n : Nat) : State := s.updRecord n fun x => x.fixOutcome x .abandoned

/-- Record `n`'s slot on route `r` becomes terminal in `st`, with its void reason (R48), its count (R69) and, if it is
required, the outcome check (R66). A terminal slot stays as it is. -/
def State.endSlot (s : State) (n : Nat) (r : RouteId) (st : SlotState) : State :=
  match s.record? n with
  | none => s
  | some x =>
    match x.slotOn r with
    | none => s
    | some sl =>
      if sl.state.terminal then s
      else
        let y := x.updSlot r fun sl => { sl with state := st, void := st.reason }
        let z := if sl.required then Record.fixOutcome x y (st.reason.getD .abandoned) else y
        (s.setRecord n z).countSlot st

/-! ## Notices and freeing -/

/-- The counter of a closing notice. -/
def RecOutcome.counter : RecOutcome → IngestCounter
  | .landed => .noticeLanded
  | .voided _ => .noticeVoided

/-- The closing notice (R67): placed when the record is LIVE, its notice OWED, its outcome fixed and the cluster link up. It
counts NOTICE_LANDED or NOTICE_VOIDED also where the output queue has no place and drops it (log entry 36). -/
def State.noticeStep (s : State) (n : Nat) : State :=
  match s.record? n with
  | none => s
  | some x =>
    match x.outcome with
    | none => s
    | some o =>
      if x.state = .live ∧ x.notice = .owed ∧ s.clusterUp then
        ((s.setRecord n { x with notice := .sent }).placeOut x.station (noticePayload x o)).count (.ingest o.counter)
      else s

/-- A LIVE record with its notice SENT and every slot terminal becomes DRAINING (R68). -/
def State.drainStep (s : State) (n : Nat) : State :=
  match s.record? n with
  | none => s
  | some x => if x.state = .live ∧ x.notice = .sent ∧ x.allTerminal then s.setRecord n { x with state := .draining } else s

/-- The freeing condition of R65. -/
def Record.freeable (x : Record) : Bool :=
  (x.state == .failed || x.state == .draining) && x.refs == 0 && x.items == 0 && x.allTerminal

/-- Frees record `n` when R65's condition holds: its extents return, it leaves its key's list, its slot is free. -/
def State.freeStep (s : State) (n : Nat) : State :=
  match s.record? n with
  | none => s
  | some x =>
    if x.freeable then
      let s1 := s.freeExtents x.extents
      let s2 := s1.setKeyList x.key ((s1.keyList x.key).filter (· != n))
      { s2 with records := Table.erase s2.records n }
    else s

/-- The checks that follow a change of record `n`'s slots: notice (R67), DRAINING (R68), freeing (R65). -/
def State.recordCheck (s : State) (n : Nat) : State := ((s.noticeStep n).drainStep n).freeStep n

/-- A span that lists record `n` ends (R64), and the freeing test follows. -/
def State.loseRef (s : State) (n : Nat) : State := (s.updRecord n fun x => { x with refs := x.refs - 1 }).freeStep n

/-- A queue item that names record `n` leaves (R58), and the freeing test follows. -/
def State.loseItem (s : State) (n : Nat) : State := (s.updRecord n fun x => { x with items := x.items - 1 }).freeStep n

/-! ## Eligibility and supersede (4.4) -/

/-- Appends an ABORT item naming record `n` to route `r`'s control queue (R54, R57). -/
def State.queueAbort (s : State) (n : Nat) (r : RouteId) : State :=
  ((s.updBld r fun b => b.joinControl .abort n).updRecord n fun x => { x with items := x.items + 1 }).count (.ingest .abortQueued)

/-- Queues record `n`'s slot on route `r` (R54 case 2): a PUT in the class queue of its class, an ERASE as an ERASE item. -/
def State.queueSlot (s : State) (n : Nat) (r : RouteId) : State :=
  match s.record? n with
  | none => s
  | some x =>
    let y := x.updSlot r fun sl => { sl with state := .queued, packed := 0 }
    match x.kind with
    | .put => (s.setRecord n y).updBld r fun b => b.joinClass x.cls n
    | .erase => (s.setRecord n { y with items := x.items + 1 }).updBld r fun b => b.joinControl .erase n

/-- A newer version takes the place of record `n`'s WAITING or QUEUED slot on route `r` (R54 case 2); any other slot is
left as it is. The record's own checks follow (R53). -/
def State.supersede (s : State) (n : Nat) (r : RouteId) : State :=
  match s.record? n with
  | none => s
  | some x =>
    match x.slotOn r with
    | none => s
    | some sl =>
      match sl.state with
      | .waiting => (s.endSlot n r .superseded).recordCheck n
      | .queued =>
        if sl.packed = 0 then
          match x.kind with
          | .put => ((s.updBld r fun b => b.leaveClass x.cls n).endSlot n r .superseded).recordCheck n
          | .erase =>
            ((((s.updBld r fun b => b.leaveControl n).endSlot n r .superseded).updRecord n fun x =>
              { x with items := x.items - 1 })).recordCheck n
        else (((s.queueAbort n r).endSlot n r .superseded).updBld r fun b => b.leaveClass x.cls n).recordCheck n
      | _ => s

/-- A newer record's slot makes an older one yield unless it is CANCELLED or ABANDONED (R54 case 1). -/
def State.blocks (s : State) (r : RouteId) (n : Nat) : Bool :=
  match (s.record? n).bind fun x => x.slotState r with
  | some st => st != .cancelled && st != .abandoned
  | none => false

/-- The eligibility test of record `n`'s slot on route `r` (R54). -/
def State.testSlot (s : State) (n : Nat) (r : RouteId) : State :=
  match s.record? n with
  | none => s
  | some x =>
    let xs := s.keyList x.key
    let newer := (xs.dropWhile (· != n)).drop 1
    let older := xs.takeWhile (· != n)
    if newer.any (s.blocks r) then s.endSlot n r .superseded
    else (s.each older fun s m => s.supersede m r).queueSlot n r

/-- The eligibility test of every WAITING slot of record `n`, in slot order (R53). -/
def State.eligibility (s : State) (n : Nat) : State :=
  match s.record? n with
  | none => s
  | some x =>
    s.each (x.slots.map (·.route)) fun s r =>
      if ((s.record? n).bind fun y => y.slotState r) = some .waiting then s.testSlot n r else s

/-! ## Creation and withdrawal (4.1, 4.3) -/

/-- A request to create a record (R10 step 3, R12), with the copy of its policy (R42, R43). -/
structure RecordRequest where
  kind : RecKind
  bucket : Word
  key : Digest
  stamp : Stamp
  length : Nat
  check : Word
  station : Addr
  cls : BitVec 2
  quorum : Nat
  early : Bool
  generation : Word
  dests : List Dest
  deriving DecidableEq, Repr

/-- The slot of a destination at creation (R47): WAITING, or ABANDONED where the route is CLOSED. -/
def State.newSlot (s : State) (d : Dest) : Slot :=
  if (s.route d.route).ctl.state = .closed then
    { route := d.route, required := d.required, state := .abandoned, packed := 0, closing := none, void := some .abandoned }
  else { route := d.route, required := d.required, state := .waiting, packed := 0, closing := none, void := none }

/-- The record of a request (R50, R56): a PUT is INGESTING with nothing owed, an ERASE is LIVE with its notice OWED. -/
def State.newRecord (s : State) (q : RecordRequest) : Record :=
  { kind := q.kind, bucket := q.bucket, key := q.key, stamp := q.stamp, length := q.length, check := q.check,
    station := q.station, extents := [], ingested := 0,
    state := (match q.kind with | .put => .ingesting | .erase => .live),
    cls := q.cls, quorum := q.quorum, early := q.early, generation := q.generation, slots := q.dests.map s.newSlot,
    refs := 0, items := 0, notice := (match q.kind with | .put => .noneOwed | .erase => .owed), outcome := none }

/-- The new stamp is not above that of the key's newest record (R50 step 2). -/
def State.isStale (s : State) (key : Digest) (stamp : Stamp) : Bool :=
  match (s.keyList key).getLast?.bind s.record? with
  | some x => decide (stamp ≤ x.stamp)
  | none => false

/-- Why a creation is refused, judged in R50's order, or the lowest-numbered free record slot. -/
def State.judgeCreation (s : State) (q : RecordRequest) : Verdict ⊕ Nat :=
  if q.kind = .erase ∧ ¬ q.dests.any (·.required) then .inl .localOnly
  else if s.isStale q.key q.stamp then .inl .stale
  else if Config.keyRecords ≤ (s.keyList q.key).length then .inl .crowded
  else
    match Table.lowestFree s.records Config.recordSlots with
    | none => .inl .tableFull
    | some n => .inr n

/-- The counter of a refused creation (R69); LOCAL_ONLY has none. -/
def State.countRefusal (s : State) : Verdict → State
  | .stale => s.count (.ingest .recordStale)
  | .crowded => s.count (.ingest .recordCrowded)
  | .tableFull => s.count (.ingest .recordTableFull)
  | _ => s

/-- More than 7,680 records are in use: the lasting condition of RECORDS_LOW (R50). -/
def State.recordsLow (s : State) : Bool := decide (Config.recordsLowMark < s.records.length)

/-- Makes the record of a request in slot `n` and files it at the end of its key's list (R45, R47, R50). RECORDS_LOW is judged
here, ahead of an ERASE's eligibility tests, which may free older records (log entry 35). -/
def State.makeRecord (s : State) (q : RecordRequest) (n : Nat) : State :=
  let x := s.newRecord q
  let s1 := (s.setRecord n x).setKeyList q.key (s.keyList q.key ++ [n])
  let s2 := s1.countBy (x.slots.countP (·.state == .abandoned)) (.ingest .slotAbandoned)
  if s2.recordsLow then s2.latch .recordsLow else s2

/-- A creation (R50). An ERASE record's outcome check and eligibility tests follow at once (R56); its own notice is left to
the caller, which places the answer first. -/
def State.createRecord (s : State) (q : RecordRequest) : (Verdict ⊕ Nat) × State :=
  match s.judgeCreation q with
  | .inl v => (.inl v, s.countRefusal v)
  | .inr n =>
    match q.kind with
    | .put => (.inr n, s.makeRecord q n)
    | .erase => (.inr n, ((s.makeRecord q n).checkOutcome n).eligibility n)

/-- Withdraws record `n` after a FULL refusal (R51). -/
def State.withdraw (s : State) (n : Nat) : State :=
  match s.record? n with
  | none => s
  | some x =>
    let s1 := s.setKeyList x.key ((s.keyList x.key).filter (· != n))
    State.count { s1 with records := Table.erase s1.records n } (.ingest .recordWithdrawn)

/-! ## Sealing and failure (4.5, 4.6) -/

/-- A successful SEAL (R55): LIVE, notice OWED, eligibility of every WAITING slot, outcome check. The record's own notice
is left to the caller, which places ACCEPTED first. -/
def State.sealRecord (s : State) (n : Nat) : State :=
  ((s.updRecord n fun x => { x with state := .live, notice := .owed }).eligibility n).checkOutcome n

/-- One slot of a failing record (R57). -/
def State.failSlot (s : State) (n : Nat) (r : RouteId) : State :=
  match s.record? n with
  | none => s
  | some x =>
    match x.slotOn r with
    | none => s
    | some sl =>
      match sl.state with
      | .waiting => s.endSlot n r .cancelled
      | .queued =>
        if sl.packed = 0 then s.holdTestAfter ((s.updBld r fun b => b.leaveClass x.cls n).endSlot n r .cancelled) r
        else ((s.queueAbort n r).endSlot n r .cancelled).updBld r fun b => b.leaveClass x.cls n
      | .sent | .receipted =>
        ((s.queueAbort n r).endSlot n r .cancelled).updTx r fun t =>
          { t with settleQ := t.settleQ.filter fun e => e.record != n }
      | _ => s

/-- An INGESTING record fails (R57). -/
def State.failRecord (s : State) (n : Nat) : State :=
  match s.record? n with
  | none => s
  | some x =>
    (((s.each (x.slots.map (·.route)) fun s r => s.failSlot n r).updRecord n fun x =>
      { x with state := .failed, notice := .noneOwed }).count (.ingest .recordFailed)).freeStep n

/-! ## A route's slots ended together (R63) -/

/-- The records, in number order, whose slot on route `r` is in a state of `p`. -/
def State.recordsWith (s : State) (r : RouteId) (p : SlotState → Bool) : List Nat :=
  (s.records.filter fun e => (e.2.slotState r).any p).map (·.1)

/-- Ends as ABANDONED the slots on route `r` in a state of `p`; the checks of the records changed follow. -/
def State.abandonSlots (s : State) (r : RouteId) (p : SlotState → Bool) : State :=
  let ns := s.recordsWith r p
  (s.each ns fun s n => s.endSlot n r .abandoned).each ns State.recordCheck

/-- Route close (R63): every slot on the route that is not terminal. -/
def State.abandonRoute (s : State) (r : RouteId) : State := s.abandonSlots r fun st => !st.terminal

/-- Rebase (R63): every SENT or RECEIPTED slot ends; every QUEUED slot starts again from offset 0. -/
def State.rebaseSlots (s : State) (r : RouteId) : State :=
  let s1 := s.each (s.recordsWith r (· == .queued)) fun s n =>
    s.updRecord n fun x => x.updSlot r fun sl => { sl with packed := 0 }
  s1.abandonSlots r fun st => st == .sent || st == .receipted

end Sys2Proof.Machine
end

