-- ==== Sys2Proof/Machine/Builder.lean ====
section
/-! DEFINITION. The Span Builder's segments (6.3 to 6.5): how the next item is tested, placed, or closes the FILLING span,
and the meanings of SEGMENT_PLACE and SPAN_HOLD_EXPIRY. -/

namespace Sys2Proof.Machine

/-- The FILLING span as it stands; EMPTY has nothing in it. -/
def Builder.current (b : Builder) : Span := if b.fill = .empty then Span.empty else b.fillSpan

/-- The room of a span (R89). -/
def Span.room (sp : Span) : Nat := Config.spanRoom - sp.area.length

/-- The segment an entry of a segment list stands for (R90, R91), given a PUT_PART's data. -/
def segmentOf (x : Record) (e : SegEntry) (data : List Byte) : Segment :=
  match e.kind with
  | .putPart =>
    { kind := .putPart, first := e.offset == 0, last := e.offset + e.len == x.length, bucket := x.bucket, key := x.key,
      stamp := x.stamp, objLen := x.length, offset := e.offset, check := if e.offset + e.len = x.length then x.check else 0,
      data := data }
  | .erase =>
    { kind := .erase, first := true, last := true, bucket := x.bucket, key := x.key, stamp := x.stamp, objLen := 0, offset := 0,
      check := 0, data := [] }
  | .abort =>
    { kind := .abort, first := false, last := false, bucket := x.bucket, key := x.key, stamp := x.stamp, objLen := x.length,
      offset := 0, check := 0, data := [] }

/-- The bytes of an entry's segment, its data read from the record's extents; none where they cannot be read. -/
def State.entryBytes (s : State) (e : SegEntry) : Option (List Byte) :=
  match s.record? e.record with
  | none => none
  | some x =>
    match e.kind with
    | .putPart => (readBody s.dram x.extents e.offset e.len).map fun d => segmentBytes (segmentOf x e d)
    | .erase | .abort => some (segmentBytes (segmentOf x e []))

/-- The chosen PUT record can start in a span (R89). -/
def Record.canStart (x : Record) (sl : Slot) (sp : Span) : Bool :=
  decide (sp.segs.length < Config.spanSegments) &&
    (decide (552 ≤ sp.room) || decide (40 + (x.length - sl.packed) ≤ sp.room))

/-- A control item can start in a span (R89). -/
def Span.takesControl (sp : Span) : Bool := decide (sp.segs.length < Config.spanSegments) && decide (40 ≤ sp.room)

/-- Appends a segment's bytes and entry to the FILLING span. An EMPTY span becomes OPEN and its hold start is set (R85). -/
def Builder.append (b : Builder) (now : Nat) (e : SegEntry) (bytes : List Byte) : Builder :=
  { b with
    fill := .filling
    holdStart := if b.fill = .empty then some now else b.holdStart
    fillSpan := { b.current with area := b.current.area ++ bytes, segs := b.current.segs ++ [e] } }

/-- A record's first segment in a span puts it on the record list and raises its span reference count (R92). -/
def State.listRecord (s : State) (r : RouteId) (n : Nat) : State :=
  if (s.route r).bld.fillSpan.recs.contains n then s
  else (s.updBld r fun b => { b with fillSpan := { b.fillSpan with recs := b.fillSpan.recs ++ [n] } }).updRecord n fun x =>
    { x with refs := x.refs + 1 }

/-- Places an entry's segment, whose bytes are given. -/
def State.placeEntry (s : State) (r : RouteId) (e : SegEntry) (bytes : List Byte) : State :=
  (s.updBld r fun b => b.append s.now e bytes).listRecord r e.record

/-- Record `n`'s slot becomes SENT and joins the span's closing list (R59, R92). -/
def State.slotSent (s : State) (r : RouteId) (n packed : Nat) : State :=
  (s.updRecord n fun x => x.updSlot r fun sl => { sl with state := .sent, packed := packed }).updBld r fun b =>
    { b with fillSpan := { b.fillSpan with closing := b.fillSpan.closing ++ [n] } }

/-- What follows a PUT_PART at its record (R59, R88, R92): SENT with the last byte, else the packed offset grows and a
starved record rotates. -/
def State.afterPut (s : State) (r : RouteId) (x : Record) (n packed : Nat) : State :=
  if packed = x.length then (s.slotSent r n packed).updBld r fun b => b.leaveClass x.cls n
  else
    let s1 := s.updRecord n fun x => x.updSlot r fun sl => { sl with packed := packed }
    if packed = x.ingested then (s1.updBld r fun b => (b.leaveClass x.cls n).joinClass x.cls n).countRoute r .headRotations
    else s1

/-- The data length of the PUT_PART placed next (R90). -/
def partLength (x : Record) (sl : Slot) (sp : Span) : Nat := min (min (sp.room - 40) (x.ingested - sl.packed)) Config.maxPart

/-- Places a segment of record `n` (R90), or closes the span by room (R93). -/
def State.placePut (s : State) (r : RouteId) (n : Nat) : Result :=
  match s.record? n with
  | none => .next s
  | some x =>
    match x.slotOn r with
    | none => .next s
    | some sl =>
      let sp := (s.route r).bld.current
      if x.canStart sl sp then
        let e : SegEntry := { record := n, kind := .putPart, offset := sl.packed, len := partLength x sl sp }
        match s.entryBytes e with
        | none => .fault .unwrittenBody
        | some bytes => .next (((s.placeEntry r e bytes).afterPut r x n (sl.packed + e.len)).holdTest r)
      else .next ((s.countRoute r .spansClosedRoom).closeSpan r)

/-- The segment kind of a control item. -/
def ItemKind.seg : ItemKind → SegKind
  | .abort => .abort
  | .erase => .erase

/-- Places a control item's segment (R91), or closes the span by room (R93). An ERASE item whose slot is not QUEUED places
no segment (R59). -/
def State.placeControl (s : State) (r : RouteId) (i : CtrlItem) : Result :=
  if (s.route r).bld.current.takesControl then
    let e : SegEntry := { record := i.record, kind := i.kind.seg, offset := 0, len := 0 }
    match s.entryBytes e with
    | none => .fault .unwrittenBody
    | some bytes =>
      let s1 := s.updBld r fun b => { b with ctrlQ := b.ctrlQ.drop 1 }
      match i.kind with
      | .abort => .next (((s1.placeEntry r e bytes).loseItem i.record).holdTest r)
      | .erase =>
        if ((s.record? i.record).bind fun x => x.slotState r) = some .queued then
          .next ((((s1.placeEntry r e bytes).slotSent r i.record 0).loseItem i.record).holdTest r)
        else .next ((s1.loseItem i.record).holdTest r)
  else .next ((s.countRoute r .spansClosedRoom).closeSpan r)

/-- The Builder may place (R86): FILLING not CLOSED, no marker pending, packable work. -/
def State.mayPlace (s : State) (r : RouteId) : Bool :=
  (s.route r).bld.fill != .closed && (s.route r).bld.marker.isNone && s.hasWork r

/-- SEGMENT_PLACE (R86 to R93): one segment is placed, or the FILLING span closes by room. -/
def execSegmentPlace (r : RouteId) (s : State) : Result :=
  if s.mayPlace r then
    match s.nextItem r with
    | none => .next s
    | some (.inl i) => s.placeControl r i
    | some (.inr n) => s.placePut r n
  else .next s

/-- SPAN_HOLD_EXPIRY (R94): at the hold's expiry the test is made. -/
def execSpanHoldExpiry (r : RouteId) (s : State) : Result := .next (s.holdTest r)

end Sys2Proof.Machine
end

