-- ==== Sys2Proof/Machine/Delivery.lean ====
section
/-! DEFINITION. The Delivery Unit (10.8) and the marker standing of a completed assembly (R169): the meanings of
STORE_ANSWER, DELIVERY_FRAME_PLACE and DELIVERY_TIMEOUT, and the give-up at a cluster link loss (R175). -/

namespace Sys2Proof.Machine

/-! ## Assemblies -/

/-- Assembly `a`, if it is in use. -/
def State.asm? (s : State) (a : Nat) : Option Assembly := Table.find s.assemblies a

/-- Writes assembly `a`. -/
def State.setAsm (s : State) (a : Nat) (x : Assembly) : State := { s with assemblies := Table.insert s.assemblies a x }

/-- Changes assembly `a`, if it is in use. -/
def State.updAsm (s : State) (a : Nat) (f : Assembly → Assembly) : State :=
  match s.asm? a with
  | none => s
  | some x => s.setAsm a (f x)

/-- Assembly `a` becomes free and its extents return (R77). -/
def State.freeAsm (s : State) (a : Nat) : State :=
  match s.asm? a with
  | none => s
  | some x => let s1 := s.freeExtents x.extents; { s1 with assemblies := Table.erase s1.assemblies a }

/-! ## Marker settlement (R169) -/

/-- A pending marker whose count is 0 settles (R169). -/
def State.settleMarker (s : State) (r : RouteId) : State :=
  match (s.route r).inb.marker with
  | none => s
  | some m =>
    if m.count = 0 then
      let s1 := s.updInb r fun i => { i with settledEpoch := m.epoch, settledFault := m.faulted, marker := none }
      let s2 := (s1.updTx r fun t => { t with receiptDue := true }).countRoute r .markersSettled
      s2.countIf m.faulted (.route r .markersFaulted)
    else s

/-- What a delivery's outcome does to its route's marker, by the assembly's standing (R169). -/
def State.applyStanding (s : State) (x : Assembly) (failed : Bool) : State :=
  match x.standing with
  | .ahead =>
    (s.updInb x.route fun i =>
      { i with marker := i.marker.map fun m => { m with count := m.count - 1, faulted := m.faulted || failed } }).settleMarker
      x.route
  | .behind => if failed then s.updInb x.route fun i => { i with openFault := true } else s
  | .detached => s

/-! ## Starting deliveries (R171) -/

/-- The lowest-numbered IDLE lane. -/
def State.idleDLane (s : State) : Option DeliveryLaneId := allDLanes.find? fun l => (s.dlane l).state == .idle

/-- The lowest-numbered IDLE lane takes the head of the delivery queue, if the cluster link is up (R171). -/
def State.startOne (s : State) : State :=
  match s.clusterUp, s.deliveryQ, s.idleDLane with
  | true, a :: rest, some l =>
    ((State.setDLane { s with deliveryQ := rest } l { DLane.reset with state := .sending, asm := a }).updAsm a fun x =>
      { x with state := .delivering }).count (.inbound .deliveriesStarted)
  | _, _, _ => s

/-- Deliveries start while they can (R171). -/
def State.startDeliveries (s : State) : State := s.each allDLanes fun s _ => s.startOne

/-! ## Replica frames (R172) -/

/-- The broadcast station address (R172). -/
def broadcast : Addr := 0xFFFFFFFFFFFF

/-- The lane after its last frame is placed (R172). -/
def State.awaiting (s : State) (x : DLane) : DLane :=
  { x with state := .awaiting, waiting := false, expiry := some (s.now + s.settings.deliveryWait * 1000) }

/-- The payload of a lane's next replica frame and the lane after it is placed (R172); none where the body cannot be read. -/
def State.nextReplica (s : State) (l : DeliveryLaneId) : Option (List Byte × DLane) :=
  let x := s.dlane l
  match s.asm? x.asm with
  | none => none
  | some a =>
    match a.kind, x.phase with
    | .erase, _ => some (replicaErasePayload l.val a, s.awaiting x)
    | .put, .opening =>
      some (replicaOpenPayload l.val a, { x with waiting := false, phase := if a.length = 0 then .sealing else .body })
    | .put, .body =>
      let n := min 8192 (a.length - x.sendOffset)
      match readBody s.dram a.extents x.sendOffset n with
      | none => none
      | some d =>
        some (replicaBodyPayload l.val x.sendOffset d,
          { x with
            waiting := false
            sendOffset := x.sendOffset + n
            phase := if a.length ≤ x.sendOffset + n then .sealing else .body })
    | .put, .sealing => some (replicaSealPayload l.val, s.awaiting x)

/-- A lower-numbered SENDING lane waits for room (R4). -/
def State.lowerWaits (s : State) (l : DeliveryLaneId) : Bool :=
  allDLanes.any fun k => decide (k < l) && (s.dlane k).state == .sending && (s.dlane k).waiting

/-- A replica frame may be placed by lane `l`: more than 64 places are free, and no lower lane waits (R4). R4 orders the lanes that
wait among themselves; that a SENDING lane which does not wait yet gives way to a lower-numbered waiting lane only, and so may place
ahead of a higher-numbered one that waits, is log entry 44. -/
def State.replicaRoom (s : State) (l : DeliveryLaneId) : Bool := decide (Config.outKept < s.outRoom) && !s.lowerWaits l

/-- DELIVERY_FRAME_PLACE (R4, R172): a SENDING lane places its next replica frame, or waits with it ready. -/
def execDeliveryFramePlace (l : DeliveryLaneId) (s : State) : Result :=
  if (s.dlane l).state = .sending then
    if s.replicaRoom l then
      match s.nextReplica l with
      | none => .fault .unwrittenBody
      | some (p, x) => .next ((s.placeOut broadcast p).setDLane l x)
    else .next (s.setDLane l { s.dlane l with waiting := true })
  else .next s

/-! ## Answers and timeouts (R173, R174) -/

/-- The delivery of lane `l` ends (R173): its timer is cancelled, its assembly released, R169 applied, the lane IDLE, and
the next delivery may start (R171). R173 does not say what the IDLE lane's attempt count, assembly number and send offset are then;
that it keeps them is the model's choice, log entry 47. -/
def State.endDelivery (s : State) (l : DeliveryLaneId) (failed : Bool) : State :=
  let x := s.dlane l
  let s1 := match s.asm? x.asm with
    | none => s
    | some a => (s.freeAsm x.asm).applyStanding a failed
  (s1.setDLane l { x with state := .idle, waiting := false, expiry := none }).startDeliveries

/-- A delivery that failed (R173): counted, and DELIVERY_FAIL latches. -/
def State.failDelivery (s : State) (l : DeliveryLaneId) : State :=
  ((s.count (.inbound .deliveryFailed)).latch .deliveryFail).endDelivery l true

/-- An answer at an AWAITING lane (R173). -/
def State.takeAnswer (s : State) (l : DeliveryLaneId) (v : StoreVerdict) : State :=
  match v with
  | .stored => (s.count (.inbound .deliveredStored)).endDelivery l false
  | .older => (s.count (.inbound .deliveredOlder)).endDelivery l false
  | .failed => s.failDelivery l

/-- STORE_ANSWER (R173). -/
def execStoreAnswer (f : Frame) (s : State) : Result :=
  if s.takesKind .cluster 0x06 f then
    match readStoreAnswer f.payload with
    | none => .next (s.count (.inbound .answerMalformed))
    | some (l, v) =>
      if (s.dlane l).state = .awaiting then .next (s.alertFrom (s.takeAnswer l v))
      else .next (s.count (.inbound .answerIgnored))
  else .next s

/-- The timer of an AWAITING lane has expired (R174). -/
def State.deliveryExpired (s : State) (l : DeliveryLaneId) : Bool :=
  (s.dlane l).state == .awaiting && (s.dlane l).expiry.any fun t => decide (t ≤ s.now)

/-- A delivery is started again from its first frame (R174). -/
def State.retryDelivery (s : State) (l : DeliveryLaneId) : State :=
  let x := s.dlane l
  ((s.setDLane l { x with state := .sending, attempts := x.attempts + 1, sendOffset := 0, phase := .opening, waiting := false,
                          expiry := none }).count (.inbound .deliveryRetries)).count (.inbound .deliveriesStarted)

/-- DELIVERY_TIMEOUT (R174). -/
def execDeliveryTimeout (l : DeliveryLaneId) (s : State) : Result :=
  if s.deliveryExpired l then
    if (s.dlane l).attempts < 3 then .next (s.retryDelivery l) else .next (s.alertFrom (s.failDelivery l))
  else .next s

/-! ## Cluster link loss (R175) -/

/-- The lanes that are SENDING or AWAITING, in lane order. -/
def State.busyDLanes (s : State) : List DeliveryLaneId := allDLanes.filter fun l => (s.dlane l).state != .idle

/-- Every delivering lane gives up its delivery; the assemblies stand at the head of the queue in lane order, and the
attempt counts are 0 (R175). That the IDLE lane keeps its assembly number and send offset is log entry 47. -/
def State.giveUpDeliveries (s : State) : State :=
  let ls := s.busyDLanes
  let q := ls.map fun l => (s.dlane l).asm
  let s1 := s.each q fun s a => s.updAsm a fun x => { x with state := .queued }
  let s2 := s1.each ls fun s l =>
    s.setDLane l { s.dlane l with state := .idle, attempts := 0, waiting := false, expiry := none }
  { s2 with deliveryQ := q ++ s2.deliveryQ }

end Sys2Proof.Machine
end

