-- ==== Sys2Proof/Machine/Inbound.lean ====
section
/-! DEFINITION. The Inbound Unit (10.1 to 10.7): acceptance, ordering and application of received spans, assemblies,
pending markers, the inbound reset, and the meanings of DATA_SPAN, MARKER_SPAN and RECEIPT_DELAY_EXPIRY. -/

namespace Sys2Proof.Machine

/-- The receipt due mark is set (R108, R170). -/
def State.receiptDue (s : State) (r : RouteId) : State := s.updTx r fun t => { t with receiptDue := true }

/-! ## The missing set (R161) -/

/-- The slot number of a sequence (R79). -/
def holdSlot (q : Word) : Nat := q.toNat % Config.holdSlots

/-- The span of sequence `q` stands in its reorder-hold slot. A slot that holds another sequence, as across the wrap it can, does
not hold `q` (log entry 40). -/
def Inbound.holds (i : Inbound) (q : Word) : Bool := (Table.find i.held (holdSlot q)).any fun h => h.seq == q

/-- The steps from x to just past the highest held sequence; 0 when no span is held. -/
def Inbound.reach (i : Inbound) : Nat := i.held.foldl (fun m e => max m (seqSteps i.expected e.2.seq + 1)) 0

/-- The first `n` sequences from `q` on. -/
def seqRun : Nat → Word → List Word
  | 0, _ => []
  | n + 1, q => q :: seqRun n (seqSucc q)

/-- The missing set in step order: the sequences from x up to the highest held one whose slots are empty (R161), or hold another
sequence: so x is missing where the span 1,023 steps after it, across the wrap, has its slot (log entry 40). -/
def Inbound.missing (i : Inbound) : List Word := (seqRun i.reach i.expected).filter fun q => !i.holds q

/-- The comparison of the missing set with the one that stood before the event (R161). -/
def State.compareMissing (before s : State) (r : RouteId) : State :=
  if (s.route r).inb.missing = (before.route r).inb.missing then s else s.receiptDue r

/-! ## Segments applied (R165, R166) -/

/-- The assembly is the route's ASSEMBLING one of a key and stamp (R162). -/
def Assembly.isFor (x : Assembly) (r : RouteId) (g : Segment) : Bool :=
  x.route == r && x.state == .assembling && x.key == g.key && x.stamp == g.stamp

/-- The route's ASSEMBLING assembly for a segment's key and stamp. -/
def State.findAsm (s : State) (r : RouteId) (g : Segment) : Option (Nat × Assembly) :=
  s.assemblies.find? fun e => e.2.isFor r g

/-- A complete assembly joins the tail of the delivery queue, and a delivery may start (R165, R166, R171). -/
def State.joinDelivery (s : State) (a : Nat) : State :=
  State.startDeliveries { s with deliveryQ := s.deliveryQ ++ [a] }

/-- A bad object (R165): the assembly is discarded, and the route's open fault is set. -/
def State.badObject (s : State) (r : RouteId) (a : Nat) : State :=
  (((s.freeAsm a).countRoute r .objectsBad).latch .badObject).updInb r fun i => { i with openFault := true }

/-- The data of a first or matched PUT_PART are checked and written; the last segment ends the object (R165). They are written at the
received offset, 0 for a first one, as R165 says, also where a first one's offset field is not 0, for which R72 speaks of the
segment's offset: log entry 45. -/
def State.extendAsm (s : State) (r : RouteId) (a : Nat) (g : Segment) : State :=
  match s.asm? a with
  | none => s
  | some x =>
    if x.length < x.received + g.data.length then s.badObject r a
    else
      let y := { x with received := x.received + g.data.length, crc := crcBytes x.crc g.data }
      let s1 := State.setAsm { s with dram := writeBody s.dram x.extents x.received g.data } a y
      if g.last then
        if y.received = y.length ∧ crcFinal y.crc = g.check then
          ((s1.setAsm a { y with check := g.check, state := .queued, standing := .behind }).countRoute r .objectsComplete).joinDelivery a
        else s1.badObject r a
      else s1

/-- The assembly a first PUT_PART creates (R165). Its body check, which R162 takes from the last PUT_PART, is 0 until then: log
entry 46. -/
def newAsm (r : RouteId) (region : BitVec 6) (g : Segment) (extents : List Nat) : Assembly :=
  { route := r, kind := .put, key := g.key, bucket := g.bucket, stamp := g.stamp, region := region, length := g.objLen,
    check := 0, extents := extents, received := 0, crc := crcInit, state := .assembling, standing := .behind }

/-- The assembly an ERASE segment creates, complete at once (R166). -/
def eraseAsm (r : RouteId) (region : BitVec 6) (g : Segment) : Assembly :=
  { route := r, kind := .erase, key := g.key, bucket := g.bucket, stamp := g.stamp, region := region, length := 0, check := 0,
    extents := [], received := 0, crc := crcInit, state := .queued, standing := .behind }

/-- An ASSEMBLING assembly for the same key and stamp is replaced (R165). -/
def State.replaceAsm (s : State) (r : RouteId) (g : Segment) : State :=
  match s.findAsm r g with
  | none => s
  | some (a, _) => (s.freeAsm a).countRoute r .assemblyReplaced

/-- The lowest-numbered free assembly (R162). -/
def State.freeAsmNumber (s : State) : Option Nat := Table.lowestFree s.assemblies Config.assemblies

/-- One segment is applied; `xs` are the granted extents not yet given to an assembly (R163, R165, R166). -/
def State.applySegment (s : State) (r : RouteId) (xs : List Nat) (g : Segment) : State × List Nat :=
  match g.kind with
  | .putPart =>
    if g.first then
      let s1 := s.replaceAsm r g
      let n := extentsFor g.objLen
      match s1.freeAsmNumber with
      | none => (s1, xs)
      | some a => ((s1.setAsm a (newAsm r (s.route r).cfg.region g (xs.take n))).extendAsm r a g, xs.drop n)
    else
      match s.findAsm r g with
      | some (a, x) =>
        if x.received = g.offset then (s.extendAsm r a g, xs)
        else ((s.countRoute r .orphan).updInb r fun i => { i with openFault := true }, xs)
      | none => ((s.countRoute r .orphan).updInb r fun i => { i with openFault := true }, xs)
  | .erase =>
    match s.freeAsmNumber with
    | none => (s, xs)
    | some a => ((s.setAsm a (eraseAsm r (s.route r).cfg.region g)).joinDelivery a, xs)
  | .abort =>
    match s.findAsm r g with
    | some (a, _) => ((s.freeAsm a).countRoute r .abortsMatched, xs)
    | none => (s.countRoute r .abortsUnmatched, xs)

/-- Segments applied in order. -/
def State.applySegments (s : State) (r : RouteId) (xs : List Nat) : List Segment → State
  | [] => s
  | g :: gs =>
    let a := s.applySegment r xs g
    a.1.applySegments r a.2 gs

/-! ## The whole-span check (R163) -/

/-- A segment needs a new assembly (R163). -/
def Segment.needsAsm (g : Segment) : Bool :=
  match g.kind with
  | .putPart => g.first
  | .erase => true
  | .abort => false

/-- The extents a segment needs (R163). -/
def Segment.needsExtents (g : Segment) : Nat := if g.kind = .putPart ∧ g.first then extentsFor g.objLen else 0

/-- The free assemblies. -/
def State.freeAsms (s : State) : Nat := Config.assemblies - s.assemblies.length

/-- What a try of a span comes to: applied, or starved, with the state that follows. -/
inductive Tried where
  | applied (s : State)
  | starved (s : State)

/-- The whole-span check (R163) and, if it passes, the segments applied; the extent request is made only after the
assembly count has passed, and a refused one is counted (R75). -/
def State.tryData (s : State) (r : RouteId) (gs : List Segment) : Tried :=
  if s.freeAsms < gs.countP Segment.needsAsm then .starved s
  else
    let n := (gs.map Segment.needsExtents).sum
    if n = 0 then .applied (s.applySegments r [] gs)
    else if s.grantsIn n then
      let g := s.grant n
      .applied (g.2.applySegments r g.1 gs)
    else .starved (s.count (.inbound .extentRefusedIn))

/-! ## Markers (R168) -/

/-- The route's completed assemblies of standing BEHIND become AHEAD. -/
def advanceStandings (r : RouteId) (t : Table Assembly) : Table Assembly :=
  t.map fun e => if e.2.route = r ∧ e.2.state ≠ .assembling ∧ e.2.standing = .behind then (e.1, { e.2 with standing := .ahead }) else e

/-- The route's completed assemblies of a standing. -/
def State.completed (s : State) (r : RouteId) (st : Standing) : Nat :=
  s.assemblies.countP fun e => e.2.route == r && e.2.state != .assembling && e.2.standing == st

/-- An applied MARKER span (R168): recorded, merged with a pending marker that still stands, settled at once if its count
is 0. -/
def State.applyMarker (s : State) (r : RouteId) (e : Word) : State :=
  let i := (s.route r).inb
  let old := i.marker
  let s1 := { s with assemblies := advanceStandings r s.assemblies }
  let m : PendingMarker := match old with
    | none => { epoch := e, count := s.completed r .behind, faulted := i.openFault }
    | some o => { epoch := e, count := s1.completed r .ahead, faulted := o.faulted || i.openFault }
  (((s1.updInb r fun i => { i with marker := some m, openFault := false }).countRoute r .markersApplied).countIf old.isSome
    (.route r .markersMerged)).settleMarker r

/-! ## Sequence handling (R160, R161, R164, R167) -/

/-- A span received and read, with the frame that carried it. -/
structure Arrival where
  span : SpanFrame
  frame : Frame
  deriving DecidableEq, Repr

/-- Tries a span's contents (R163, R164); a MARKER needs no resources (R168). -/
def State.tryContents (s : State) (r : RouteId) (sp : SpanFrame) : Tried :=
  match sp.kind with
  | .data => s.tryData r sp.segs
  | .marker => .applied (s.applyMarker r sp.epoch)

/-- Steps 1 to 4 of R167, and the span's slot emptied (R79). -/
def State.advance (s : State) (r : RouteId) (q : Word) : State :=
  let i := (s.route r).inb
  let n := min 16 (i.pendCount + 1)
  let s1 := (s.updInb r fun i =>
    { i with
      lastApplied := q
      expected := seqSucc q
      held := if i.holds q then Table.erase i.held (holdSlot q) else i.held
      pendTime := if i.pendCount = 0 then some s.now else i.pendTime
      pendCount := n }).countRoute r .spansApplied
  if n = 16 ∧ i.pendCount < 16 then s1.receiptDue r else s1

/-- The starved span is kept or becomes held in its slot, and is counted (R164). Its length is the payload's (log entry 37), and
it takes the slot from a span of another sequence there (log entry 40). -/
def State.keepStarved (s : State) (r : RouteId) (a : Arrival) : State :=
  (s.countRoute r .inboundStarved).updInb r fun i =>
    if i.holds a.span.seq then i
    else { i with held := Table.insert i.held (holdSlot a.span.seq)
                            { seq := a.span.seq, len := a.frame.payload.length, frame := a.frame } }

/-- The span at x is applied (true) or found starved (false). -/
def State.applyAt (s : State) (r : RouteId) (a : Arrival) : State × Bool :=
  match s.tryContents r a.span with
  | .applied s1 => (s1.advance r a.span.seq, true)
  | .starved s1 => (s1.keepStarved r a, false)

/-- The kind of a held span's frame. -/
def HeldSpan.read (h : HeldSpan) : Option SpanFrame :=
  if h.frame.kind = some 0x21 then readSpan .marker h.frame.payload else readSpan .data h.frame.payload

/-- The held span of x, if its slot holds it. -/
def State.heldAtX (s : State) (r : RouteId) : Option Arrival :=
  let i := (s.route r).inb
  match Table.find i.held (holdSlot i.expected) with
  | none => none
  | some h => if h.seq = i.expected then h.read.map fun sp => { span := sp, frame := h.frame } else none

/-- The drain (R167 step 5): held spans are applied in turn until an empty slot or a starved span. -/
def State.drain (s : State) (r : RouteId) : Nat → State
  | 0 => s
  | fuel + 1 =>
    match s.heldAtX r with
    | none => s
    | some a =>
      match s.applyAt r a with
      | (s1, true) => s1.drain r fuel
      | (s1, false) => s1

/-- The span at x is tried, and the held spans after it drained (R160 Expected, R167). -/
def State.tryExpected (s : State) (r : RouteId) (a : Arrival) : State :=
  match s.applyAt r a with
  | (s1, true) => s1.drain r Config.holdSlots
  | (s1, false) => s1

/-- A duplicate is dropped (R160, R161). -/
def State.duplicate (s : State) (r : RouteId) : State := (s.countRoute r .duplicateSpans).receiptDue r

/-- An ahead span goes to its slot (R161), with the payload's length (log entry 37). A slot that is not empty makes the arrival a
duplicate, be its span of another sequence, as across the wrap it can be (log entry 40). -/
def State.hold (s : State) (r : RouteId) (a : Arrival) : State :=
  let i := (s.route r).inb
  match Table.find i.held (holdSlot a.span.seq) with
  | some _ => s.duplicate r
  | none =>
    (s.updInb r fun i =>
      { i with held := Table.insert i.held (holdSlot a.span.seq)
                         { seq := a.span.seq, len := a.frame.payload.length, frame := a.frame } }).countRoute r .spansHeld

/-- An accepted span is placed against the expected sequence x (R160). The missing set is compared at the end (R161). -/
def State.takeSpan (s : State) (r : RouteId) (a : Arrival) : State :=
  let i := (s.route r).inb
  let q := a.span.seq
  if precedes q i.expected then s.duplicate r
  else if q = i.expected then
    match s.heldAtX r with
    | some h => s.compareMissing ((s.tryExpected r h).duplicate r) r
    | none => s.compareMissing (s.tryExpected r a) r
  else if seqSteps i.expected q ≤ Config.holdSlots - 1 then s.compareMissing (s.hold r a) r
  else s.countRoute r .outOfWindow

/-- A span from the long-haul port (R159): checked, matched to its route, and taken. -/
def State.spanArrives (s : State) (k : SpanKind) (f : Frame) : State :=
  match readSpan k f.payload with
  | none => (s.count (.inbound .spanCorrupt)).latch .badSpan
  | some sp =>
    match s.routeOfRegion sp.src with
    | none => s.count (.inbound .spanMisrouted)
    | some r =>
      if sp.dst = s.settings.localRegion.toNat ∧ (s.route r).ctl.state ≠ .closed then s.takeSpan r { span := sp, frame := f }
      else s.count (.inbound .spanMisrouted)

/-- DATA_SPAN (R159 to R167). -/
def execDataSpan (f : Frame) (s : State) : Result :=
  if s.takesKind .longhaul 0x20 f then .next (s.alertFrom (s.spanArrives .data f)) else .next s

/-- MARKER_SPAN (R159 to R161, R167 to R169). -/
def execMarkerSpan (f : Frame) (s : State) : Result :=
  if s.takesKind .longhaul 0x21 f then .next (s.alertFrom (s.spanArrives .marker f)) else .next s

/-- `RECEIPT_DELAY` has passed from the receipt-pending time (R170). -/
def State.receiptDelayPassed (s : State) (r : RouteId) : Bool :=
  (s.route r).inb.pendTime.any fun t => decide (t + s.settings.receiptDelay ≤ s.now)

/-- RECEIPT_DELAY_EXPIRY (R170). -/
def execReceiptDelayExpiry (r : RouteId) (s : State) : Result :=
  if s.receiptDelayPassed r then .next (s.receiptDue r) else .next s

/-! ## The inbound reset (R158) -/

/-- The route's ASSEMBLING assemblies, in number order. -/
def State.assembling (s : State) (r : RouteId) : List Nat :=
  (s.assemblies.filter fun e => e.2.route == r && e.2.state == .assembling).map (·.1)

/-- The route's completed assemblies become DETACHED. -/
def detachStandings (r : RouteId) (t : Table Assembly) : Table Assembly :=
  t.map fun e => if e.2.route = r then (e.1, { e.2 with standing := .detached }) else e

/-- An inbound reset of a route (R158): assemblies still ASSEMBLING are discarded, completed ones DETACHED, the inbound
state takes its first values. The receipt due mark stays as it stands (R108). -/
def State.inboundReset (s : State) (r : RouteId) : State :=
  let s1 := s.each (s.assembling r) State.freeAsm
  { s1 with assemblies := detachStandings r s1.assemblies }.updInb r fun _ => Inbound.reset

end Sys2Proof.Machine
end

