-- ==== Sys2Proof/Machine/Pacing.lean ====
section
/-! DEFINITION. The Pacing Unit (chapter 8): credit, round-trip arithmetic, the resend timeout, the flight limit, the rate
regulator, and the meaning of PACING_INTERVAL. -/

namespace Sys2Proof.Machine

/-- A value clamped to `lo` to `hi`. -/
def clamp (lo hi n : Nat) : Nat := max lo (min hi n)

/-- The credit cap RATE × 8 × BURST (R127). -/
def creditCap (rate burst : Nat) : Int := (rate * 8 * burst : Nat)

/-- The route's credit cap. -/
def Route.cap (x : Route) : Int := creditCap x.pace.rate x.cfg.burst.toNat

/-- The opening values (R126). -/
def openingPace (c : RouteCfg) : Pacing :=
  { rate := c.startRate.toNat, srtt := c.srttInit.toNat, credit := 0, regulator := .acquire, lastInc := none, lastDec := none,
    hold := none }

/-- The regulator changes (R136): a change latches RATE_LOCK, and the state of a route in service follows (R148). -/
def State.setRegulator (s : State) (r : RouteId) (g : Regulator) : State :=
  if (s.route r).pace.regulator = g then s
  else
    let s1 := (s.latch .rateLock).updPace r fun p => { p with regulator := g }
    match (s.route r).ctl.state with
    | .acquire | .track =>
      s1.updCtl r fun c => { c with state := match g with | .acquire => .acquire | .track => .track }
    | _ => s1

/-- The opening values are taken (R126); a regulator in TRACK changes to ACQUIRE (R136). -/
def State.takeOpening (s : State) (r : RouteId) : State :=
  (s.setRegulator r .acquire).updRoute r fun x => { x with pace := openingPace x.cfg }

/-- The closed values are taken (R125); no class latches. -/
def State.takeClosed (s : State) (r : RouteId) : State := s.updPace r fun _ => Pacing.reset

/-- One route's refill at a pacing interval (R127). -/
def Route.refill (x : Route) : Route :=
  if x.ctl.state = .closed then x
  else { x with pace := { x.pace with credit := min (x.pace.credit + (x.pace.rate * 8 : Nat)) x.cap } }

/-- A frame's wire length is charged to the credit (R128). -/
def State.charge (s : State) (r : RouteId) (wire : Nat) : State :=
  s.updPace r fun p => { p with credit := p.credit - (wire : Int) }

/-- The base RTO (R130). -/
def Route.baseRto (x : Route) : Nat := clamp 10000 4000000 (2 * x.pace.srtt + x.cfg.rtoPad.toNat)

/-- The effective RTO (R130). -/
def Route.rto (x : Route) : Nat := min 4000000 (x.baseRto * 2 ^ x.tx.timeouts)

/-- The flight limit (R131). -/
def Route.flightLimit (x : Route) : Nat := max 9216 (x.pace.rate * x.pace.srtt / 4)

/-- SRTT after a clamped sample (R129): one eighth of the difference, rounded toward the old value. -/
def nextSrtt (srtt sample : Nat) : Nat :=
  if srtt ≤ sample then srtt + (sample - srtt) / 8 else srtt - (srtt - sample) / 8

/-- A round-trip sample (R129). -/
def State.takeSample (s : State) (r : RouteId) (sample : Nat) : State :=
  let c := clamp 1000 2000000 sample
  (s.countIf (c != sample) (.route r .samplesClamped)).updPace r fun p =>
    { p with srtt := clamp 1000 2000000 (nextSrtt p.srtt c) }

/-- The new RATE of a decrease (R133). -/
def decreasedRate (c : RouteCfg) (g : Regulator) (rate : Nat) : Nat :=
  match g with
  | .acquire => max c.floor.toNat (rate / 2)
  | .track => max c.floor.toNat (rate - rate / 4)

/-- The new RATE of an increase (R135). -/
def increasedRate (c : RouteCfg) (g : Regulator) (rate : Nat) : Nat :=
  match g with
  | .acquire => min c.ceil.toNat (rate + max 1 (rate / 4))
  | .track => min c.ceil.toNat (rate + max 1 (c.ceil.toNat / 64))

/-- RATE is lowered to `rate`, the credit limited to the new cap (R128). -/
def Route.lowerRate (x : Route) (rate : Nat) : Route :=
  { x with pace := { x.pace with rate := rate, credit := min x.pace.credit (creditCap rate x.cfg.burst.toNat) } }

/-- A decrease (R132, R133). -/
def State.decrease (s : State) (r : RouteId) : State :=
  (((s.updRoute r fun x => x.lowerRate (decreasedRate x.cfg x.pace.regulator x.pace.rate)).updPace r fun p =>
    { p with lastDec := some s.now, hold := none }).countRoute r .rateDecreases).setRegulator r .track

/-- At least SRTT µs lie between a time, if there is one, and the present (R132, R134). -/
def spaced (t : Option Nat) (srtt now : Nat) : Bool :=
  match t with
  | none => true
  | some t => decide (t + srtt ≤ now)

/-- A loss event (R132; R137 while IMPAIRED). -/
def State.lossEvent (s : State) (r : RouteId) : State :=
  let s1 := s.countRoute r .lossEvents
  let x := s.route r
  if x.ctl.state = .impaired then s1.countRoute r .lossIgnored
  else if spaced x.pace.lastDec x.pace.srtt s.now then s1.decrease r
  else (s1.countRoute r .lossIgnored).updRoute r fun x =>
    { x with pace := { x.pace with hold := some (seqPred x.tx.nextSeq) } }

/-- The loss hold clears when an advance to `t` reaches its recovery sequence (R134). -/
def holdAfter (hold : Option Word) (t : Word) : Option Word :=
  match hold with
  | none => none
  | some q => if t = q ∨ precedes q t then none else some q

/-- An increase (R134, R135). -/
def State.increase (s : State) (r : RouteId) : State :=
  let x := s.route r
  let rate := increasedRate x.cfg x.pace.regulator x.pace.rate
  let s1 := (s.updPace r fun p => { p with rate := rate, lastInc := some s.now }).countRoute r .rateIncreases
  if rate = x.cfg.ceil.toNat then s1.setRegulator r .track else s1

/-- A cumulative advance to `t` (R134); while IMPAIRED it changes no pacing state (R137). -/
def State.judgeIncrease (s : State) (r : RouteId) (t : Word) : State :=
  if (s.route r).ctl.state = .impaired then s
  else
    let s1 := s.updPace r fun p => { p with hold := holdAfter p.hold t }
    let p := (s1.route r).pace
    if p.hold.isNone && spaced p.lastInc p.srtt s.now then s1.increase r else s1

/-- The return from IMPAIRED (R137). The regulator's change latches RATE_LOCK if it was TRACK. -/
def State.paceReturn (s : State) (r : RouteId) : State :=
  (s.setRegulator r .acquire).updRoute r fun x =>
    { x with
      pace := { x.pace with
        rate := max x.cfg.floor.toNat (x.pace.rate / 2), credit := 0, hold := none, lastInc := some s.now,
        lastDec := some s.now } }

/-- A pacing interval expiry is due: the time base has reached a multiple of 64 µs not yet taken (R127). -/
def State.pacingDue (s : State) : Bool := decide (s.pacingNext ≤ s.now)

/-- PACING_INTERVAL (R127): every route that is not CLOSED is refilled. -/
def execPacingInterval (s : State) : Result :=
  if s.pacingDue then
    .next { s.each allRoutes (fun s r => s.updRoute r Route.refill) with pacingNext := (s.now / 64 + 1) * 64 }
  else .next s

end Sys2Proof.Machine
end

