-- ==== Sys2Proof/Machine/Transmit.lean ====
section
/-! DEFINITION. The Span Transmitter and Receipt Processor (chapter 7): window, resend list, resend timer, receipts, the
arbiter's grants, impairment and its release as far as they act on the window, and the meanings of LONGHAUL_GRANT,
RESEND_TIMEOUT and RECEIPT. -/

namespace Sys2Proof.Machine

/-! ## The resend timer (R120) -/

/-- The timer starts at `t`, unless the route is PAUSED or IMPAIRED, where it does not run (R120). -/
def State.startTimer (s : State) (r : RouteId) (t : Nat) : State :=
  let c := (s.route r).ctl
  s.updTx r fun x => { x with timer := if c.paused ∨ c.state = .impaired then none else some t }

/-- The running timer has reached its start plus the effective RTO (R120). -/
def State.timerExpired (s : State) (r : RouteId) : Bool :=
  (s.route r).tx.timer.any fun t => decide (t + (s.route r).rto ≤ s.now)

/-! ## Impairment (R149) -/

/-- A route in ACQUIRE or TRACK enters IMPAIRED (R149, R122, R137). -/
def State.impair (s : State) (r : RouteId) : State :=
  let s1 := s.updRoute r fun x =>
    { x with
      ctl := { x.ctl with state := .impaired, recovered := false, cleared := false,
                          probeTimer := some (s.now + x.cfg.probePeriod.toNat * 1000) }
      tx := { x.tx with probeDue := true, timer := none } }
  (s1.latch .routeImpaired).countRoute r .impairedEntries

/-! ## The resend list (R111) -/

/-- Inserts a sequence in serial order among those listed; one already listed is not added again. -/
def insertSerial (q : Word) : List Word → List Word
  | [] => [q]
  | p :: ps => if p = q then p :: ps else if precedes q p then q :: p :: ps else p :: insertSerial q ps

/-- Changes the descriptor of a sequence. -/
def Transmit.updDesc (t : Transmit) (q : Word) (f : Descriptor → Descriptor) : Transmit :=
  { t with window := t.window.map fun d => if d.seq = q then f d else d }

/-- A window span joins the resend list at the present time (R111). -/
def Transmit.list (t : Transmit) (now : Nat) (q : Word) : Transmit :=
  { t.updDesc q fun d => { d with onList := true, requested := some now } with resend := insertSerial q t.resend }

/-- The descriptor of a sequence in the window. -/
def Transmit.desc? (t : Transmit) (q : Word) : Option Descriptor := t.window.find? fun d => d.seq == q

/-- The resend timer expires (R121). -/
def State.expire (s : State) (r : RouteId) : State :=
  let s1 := match (s.route r).tx.window with
    | [] => s
    | d :: _ => s.updTx r fun t => t.list s.now d.seq
  let s2 := (s1.updTx r fun t => { t with timeouts := t.timeouts + 1 }).lossEvent r
  let s3 := s2.countRoute r .resendTimeouts
  if (s3.route r).tx.timeouts = 8 then s3.impair r else s3.startTimer r s.now

/-- RESEND_TIMEOUT (R121). -/
def execResendTimeout (r : RouteId) (s : State) : Result :=
  if s.timerExpired r then .next (s.alertFrom (s.expire r)) else .next s

/-! ## Receipts (R113 to R119) -/

/-- One covered span leaves the window (R115); `d` is its descriptor. Its records go in the order of its record list (log entry 9). -/
def State.coverSpan (s : State) (r : RouteId) (d : Descriptor) : State :=
  let s1 := s.updTx r fun t =>
    { t with window := t.window.filter (fun e => e.seq != d.seq), inFlight := t.inFlight - d.wire,
             resend := t.resend.filter (· != d.seq) }
  let s2 := s1.each d.closing fun s n =>
    s.updRecord n fun x => x.updSlot r fun sl =>
      if sl.state = .sent ∧ sl.closing = some d.seq then { sl with state := .receipted } else sl
  let s3 := s2.each d.recs State.loseRef
  { s3 with descFree := s3.descFree + 1 }

/-- The window spans a cumulative point `t` covers: from the head up to and including it (R115). -/
def coveredBy (w : List Descriptor) (t : Word) : List Descriptor :=
  w.takeWhile (fun d => d.seq != t) ++ (w.dropWhile fun d => d.seq != t).take 1

/-- The sample of an advance: the newest span that left and was never resent (R116). -/
def sampleOf (now : Nat) (ds : List Descriptor) : Option Nat :=
  ((ds.filter fun d => !d.resent).getLast?).map fun d => now - d.firstSend

/-- The cumulative point advances to `t` (R115, R116, R134). That a timer restarted where its start plus the RTO lies in the past, or
equals the present time, expires here, ahead of the receipt's gaps, is log entry 13. -/
def State.cumulative (s : State) (r : RouteId) (t : Word) : State :=
  let ds := coveredBy (s.route r).tx.window t
  let s1 := (s.each ds fun s d => s.coverSpan r d).updTx r fun x => { x with through := t }
  let s2 := match sampleOf s.now ds with
    | none => s1
    | some m => (s1.countRoute r .rttSamples).takeSample r m
  let s3 := (s2.judgeIncrease r t).updTx r fun x => { x with timeouts := 0 }
  match (s3.route r).tx.window with
  | [] => s3.updTx r fun x => { x with timer := none }
  | d :: _ =>
    let s4 := s3.startTimer r d.lastSend
    if s4.timerExpired r then s4.expire r else s4

/-- A request so recent that it may already have been answered (R117). -/
def Descriptor.recent (d : Descriptor) (srtt now : Nat) : Bool := d.requested.any fun t => decide (now ≤ t + srtt)

/-- One listed gap (R117). -/
def State.takeGap (s : State) (r : RouteId) (g : Word) : State :=
  match (s.route r).tx.desc? g with
  | none => s
  | some d =>
    if (s.route r).tx.resend.contains g then s
    else if d.recent (s.route r).pace.srtt s.now then s
    else
      let s1 := (s.updTx r fun t => t.list s.now g).countRoute r .gapRequests
      if d.resent then s1 else s1.lossEvent r

/-- The entries of a settlement queue whose sequence precedes the marker's, from the head on (R119). -/
def settledEntries (q : List SettleEntry) (m : Word) : List SettleEntry := q.takeWhile fun e => precedes e.seq m

/-- The state a settlement gives a slot (R62). -/
def settledState (faulted : Bool) : SlotState := if faulted then .faulted else .settled

/-- A named slot settles if it is SENT or RECEIPTED (R62). -/
def State.settleSlot (s : State) (r : RouteId) (faulted : Bool) (n : Nat) : State :=
  match (s.record? n).bind fun x => x.slotState r with
  | some .sent | some .receipted => s.endSlot n r (settledState faulted)
  | _ => s

/-- The outstanding marker's epoch settles (R119, R156). -/
def State.settleEpoch (s : State) (r : RouteId) (m : Word) (epoch : Word) (faulted : Bool) : State :=
  let es := settledEntries (s.route r).tx.settleQ m
  let s1 := s.updTx r fun t => { t with settleQ := t.settleQ.drop es.length }
  let s2 := s1.each (es.map (·.record)) fun s n => s.settleSlot r faulted n
  let s3 := s2.updCtl r fun c => { c with marker := none, settledEpoch := epoch, settledFault := faulted }
  let s4 := s3.countRoute r .epochsSettled
  let s5 := if faulted then (s4.countRoute r .epochsFaulted).latch .epochFault else s4
  s5.each (es.map (·.record)) State.recordCheck

/-- The settled epoch of a receipt (R119): it acts only if it is that of an outstanding marker already transmitted. -/
def State.takeEpoch (s : State) (r : RouteId) (epoch : Word) (faulted : Bool) : State :=
  match (s.route r).ctl.marker with
  | none => s
  | some m =>
    match m.seq with
    | none => s
    | some q => if m.epoch = epoch then s.settleEpoch r q epoch faulted else s

/-- T is behind (R114). Receipted-through 0 is not a sequence, so only T = 0 is behind it (R101): log entry 12. -/
def behindWindow (through t : Word) : Bool := t == 0 || t == through || (through != 0 && precedes t through)

/-- A receipt that passed R113's checks (R113 to R119). That the gaps and the settled epoch of a receipt with T of 0 count, also after a
rebase (R114), where R123 says that it does nothing, is log entry 12. -/
def State.takeReceipt (s : State) (r : RouteId) (f : ReceiptFrame) : State :=
  let s1 := s.countRoute r .receiptsTaken
  let rest (s : State) := (s.each f.gaps fun s g => s.takeGap r g).takeEpoch r f.epoch f.faulted
  if ((s.route r).tx.desc? f.through).isSome then rest (s1.cumulative r f.through)
  else if behindWindow (s.route r).tx.through f.through then rest s1
  else s1.countRoute r .badReceipt

/-- A receipt from the long-haul port (R113). -/
def State.receiptArrives (s : State) (f : Frame) : State :=
  match readReceipt f.payload with
  | none => s.count (.inbound .receiptCorrupt)
  | some x =>
    match s.routeOfRegion x.src with
    | none => s.count (.inbound .receiptMisrouted)
    | some r =>
      if x.dst ≠ s.settings.localRegion.toNat ∨ (s.route r).ctl.state = .closed then s.count (.inbound .receiptMisrouted)
      else if (s.route r).ctl.state = .opening then s.countRoute r .receiptEarly
      else s.takeReceipt r x

/-- RECEIPT (R113 to R119). -/
def execReceipt (f : Frame) (s : State) : Result :=
  if s.takesKind .longhaul 0x22 f then .next (s.alertFrom (s.receiptArrives f)) else .next s

/-! ## Grants (R105 to R112) -/

/-- The READY span has window room (R105). -/
def State.windowRoom (s : State) (r : RouteId) (sp : Span) : Bool :=
  decide ((s.route r).tx.inFlight + sp.wire ≤ (s.route r).flightLimit) &&
    decide ((s.route r).tx.window.length < Config.windowSpans) && decide (0 < s.descFree)

/-- The frame a route offers at a grant (R107). -/
inductive Offer where
  | receipt
  | reply
  | probe
  | resend (d : Descriptor)
  | ready (sp : Span)
  deriving DecidableEq, Repr

/-- The head of the resend list. -/
def Transmit.resendHead (t : Transmit) : Option Descriptor := t.resend.head?.bind t.desc?

/-- The route sends DATA and MARKER spans in ACQUIRE and TRACK only. -/
def RouteState.inService : RouteState → Bool
  | .acquire | .track => true
  | .closed | .opening | .impaired => false

/-- The first frame a route has waiting and may send (R107). -/
def State.offer (s : State) (r : RouteId) : Option Offer :=
  let x := s.route r
  if x.ctl.state = .closed ∨ x.ctl.paused then none
  else if x.tx.receiptDue then some .receipt
  else if x.tx.replyDue then some .reply
  else if x.tx.probeDue ∧ (x.ctl.state = .opening ∨ x.ctl.state = .impaired) then some .probe
  else if x.ctl.state.inService ∧ 0 < x.pace.credit then
    match x.tx.resendHead with
    | some d => some (.resend d)
    | none =>
      match x.bld.ready with
      | some sp => if s.windowRoom r sp then some (.ready sp) else none
      | none => none
  else none

/-- Participant `p` is eligible: routes 0 to 7, then the pass-through FIFO (R106). -/
def State.eligible (s : State) (p : Fin 9) : Bool :=
  if h : p.val < 8 then (s.offer ⟨p.val, h⟩).isSome else !s.passOut.isEmpty

/-- The participants in the order the arbiter examines them: from the one after the last served (R106). -/
def arbiterOrder (last : Fin 9) : List (Fin 9) := (List.finRange 9).map fun i => last + 1 + i

/-- The participant granted, if a grant can be made (R106). -/
def State.granted (s : State) : Option (Fin 9) :=
  if s.longTx.isNone ∧ s.longUp then (arbiterOrder s.arbLast).find? s.eligible else none

/-- The long-haul transmitter starts a frame. -/
def State.startLong (s : State) (f : Frame) : State := { s with longTx := some f }

/-- The long-haul transmitter starts a frame of a route's, to its remote station (9.1). -/
def State.sendRoute (s : State) (r : RouteId) (payload : List Byte) : State :=
  s.startLong (s.ownFrame .longhaul (s.route r).cfg.addr payload)

/-- A due receipt is composed and sent (R108, R170). -/
def State.sendReceipt (s : State) (r : RouteId) : State :=
  let x := s.route r
  let p := receiptPayload s.settings.localRegion x.cfg.region x.inb.lastApplied x.inb.settledEpoch x.inb.settledFault
    (x.inb.missing.take 8)
  ((s.sendRoute r p).updRoute r fun x =>
    { x with tx := { x.tx with receiptDue := false }, inb := { x.inb with pendCount := 0, pendTime := none } }).countRoute r
      .receiptsSent

/-- A due probe reply is composed and sent (R144). -/
def State.sendReply (s : State) (r : RouteId) : State :=
  let x := s.route r
  ((s.sendRoute r (probePayload 0x24 false s.settings.localRegion x.cfg.region x.ctl.life x.ctl.echo)).updTx r fun t =>
    { t with replyDue := false }).countRoute r .repliesSent

/-- A due probe is composed and sent (R144). -/
def State.sendProbe (s : State) (r : RouteId) : State :=
  let x := s.route r
  ((s.sendRoute r (probePayload 0x23 (x.ctl.state == .opening) s.settings.localRegion x.cfg.region x.ctl.life 0)).updTx r
    fun t => { t with probeDue := false }).countRoute r .probesSent

/-- The segment area of a descriptor, rebuilt (R112); none where a body cannot be read. -/
def State.rebuildArea (s : State) : List SegEntry → Option (List Byte)
  | [] => some []
  | e :: es =>
    match s.entryBytes e, s.rebuildArea es with
    | some b, some bs => some (b ++ bs)
    | _, _ => none

/-- A resend (R112). -/
def State.resendSpan (s : State) (r : RouteId) (d : Descriptor) : Result :=
  match s.rebuildArea d.segs with
  | none => .fault .unwrittenBody
  | some area =>
    let p := spanPayload d.kind s.settings.localRegion (s.route r).cfg.region d.seq d.epoch d.segs.length area
    let s1 := (s.sendRoute r p).updTx r fun t =>
      { t.updDesc d.seq fun d => { d with lastSend := s.now, resent := true, onList := false } with resend := t.resend.drop 1 }
    let s2 := (s1.charge r d.wire).countRoute r .spansResent
    .next (if (s.route r).tx.window.head?.map (·.seq) = some d.seq then s2.startTimer r s.now else s2)

/-- The descriptor of a span sent for the first time (R103, R109). -/
def Span.descriptor (sp : Span) (q : Word) (now : Nat) : Descriptor :=
  { seq := q, kind := sp.kind, epoch := sp.epoch, wire := sp.wire, segs := sp.segs, recs := sp.recs, closing := sp.closing,
    firstSend := now, lastSend := now, resent := false, requested := none, onList := false }

/-- A slot of the closing list that is still SENT takes the sequence and joins the settlement queue (R60, R118). -/
def State.closeSlot (s : State) (r : RouteId) (q : Word) (n : Nat) : State :=
  if ((s.record? n).bind fun x => x.slotState r) = some .sent then
    (s.updRecord n fun x => x.updSlot r fun sl => { sl with closing := some q }).updTx r fun t =>
      { t with settleQ := t.settleQ ++ [{ seq := q, record := n }] }
  else s

/-- A marker's sequence is recorded in the outstanding marker (R109 step 7). -/
def State.recordMarker (s : State) (r : RouteId) (q : Word) : State :=
  s.updCtl r fun c => { c with marker := c.marker.map fun m => { m with seq := some q } }

/-- The first transmission of the READY span (R109). -/
def State.firstSend (s : State) (r : RouteId) (sp : Span) : State :=
  let t := (s.route r).tx
  let q := t.nextSeq
  let s1 := { s with descFree := s.descFree - 1 }.updTx r fun t =>
    { t with nextSeq := seqSucc q, window := t.window ++ [sp.descriptor q s.now], inFlight := t.inFlight + sp.wire }
  let s2 := (s1.charge r sp.wire).sendRoute r
    (spanPayload sp.kind sp.srcRegion sp.dstRegion q sp.epoch sp.segs.length sp.area)
  let s3 := s2.each sp.closing fun s n => s.closeSlot r q n
  let s4 := match sp.kind with
    | .marker => (s3.recordMarker r q).countRoute r .markersSent
    | .data => s3.countRoute r .spansSent
  let s5 := if t.window.isEmpty then s4.startTimer r s.now else s4
  (s5.updBld r fun b => { b with ready := none }).handOver r

/-- A route's grant (R107). -/
def State.grantRoute (s : State) (r : RouteId) : Result :=
  match s.offer r with
  | none => .next s
  | some .receipt => .next (s.sendReceipt r)
  | some .reply => .next (s.sendReply r)
  | some .probe => .next (s.sendProbe r)
  | some (.resend d) => s.resendSpan r d
  | some (.ready sp) => .next (s.firstSend r sp)

/-- The pass-through FIFO's grant: its oldest frame starts (R3, R106). -/
def State.grantPass (s : State) : State :=
  match s.passOut with
  | [] => s
  | f :: rest => State.startLong { s with passOut := rest } f

/-- LONGHAUL_GRANT (R106 to R112). -/
def execLonghaulGrant (s : State) : Result :=
  match s.granted with
  | none => .next s
  | some p =>
    let s1 := { s with arbLast := p }
    if h : p.val < 8 then s1.grantRoute ⟨p.val, h⟩ else .next s1.grantPass

end Sys2Proof.Machine
end

