-- ==== Sys2Proof/Machine/RouteControl.lean ====
section
/-! DEFINITION. The Route Controller (chapter 9): opening, closing, rebase, impairment and its release, pause and resume,
probes, and the epoch timer; the meanings of PROBE_TIMER, EPOCH_TICK, PROBE and PROBE_REPLY. The meanings of the ROUTE
parcels, which answer with a status parcel, are in Management.lean over the operations here. -/

namespace Sys2Proof.Machine

/-! ## Discarding a route's work (R81, R99, R123) -/

/-- The route's queues are emptied, each control item lowering its record's count (R58, R81), from the queue's head on (log entry 9). -/
def State.clearQueues (s : State) (r : RouteId) : State :=
  let items := (s.route r).bld.ctrlQ
  (s.updBld r fun b => { b with ctrlQ := [], classQ := Vector.replicate 4 [] }).each items fun s i => s.loseItem i.record

/-- The records listed by the spans in a route's buffers, READY first. -/
def Builder.listed (b : Builder) : List Nat := ((b.ready.map (·.recs)).getD []) ++ b.current.recs

/-- Both span buffers and a pending marker are discarded, each span's references lowered (R99). That the records go in the order of the
spans, READY first, each by its record list, which orders the extents of those freed (R77), is log entry 9. -/
def State.discardBuffers (s : State) (r : RouteId) : State :=
  let ns := (s.route r).bld.listed
  (s.updBld r fun b =>
    { b with fill := .empty, fillSpan := Span.empty, ready := none, marker := none, holdStart := none }).each ns State.loseRef

/-- The send window, resend list and settlement queue are discarded and descriptors return (R123); the due marks stay. That
the records go in window order, each span's by its record list, which orders the extents of those freed (R77), is log entry 9. -/
def State.discardWindow (s : State) (r : RouteId) : State :=
  let t := (s.route r).tx
  let s1 := s.updTx r fun t =>
    { Transmit.reset with receiptDue := t.receiptDue, probeDue := t.probeDue, replyDue := t.replyDue }
  let s2 := s1.each (t.window.flatMap (·.recs)) State.loseRef
  { s2 with descFree := s2.descFree + t.window.length }

/-! ## Close, rebase, open (R143, R152, R153) -/

/-- The controller of a closed route; the previous life is kept (R152). The reply echo, which R152 does not name, becomes 0
(log entry 39). -/
def closedControl (c : Control) : Control := { Control.reset with prevLife := c.prevLife }

/-- A route that is not CLOSED closes, at every block in the order of R152. -/
def State.closeRoute (s : State) (r : RouteId) : State :=
  let s1 := (((s.abandonRoute r).clearQueues r).discardBuffers r).discardWindow r
  let s2 := s1.updTx r fun _ => Transmit.reset
  let s3 := (s2.takeClosed r).inboundReset r
  (s3.updCtl r closedControl).latch .routeChange

/-- A rebase to the remote life `l` (R153). Leaving IMPAIRED for ACQUIRE latches ROUTE_CHANGE (R148). -/
def State.rebase (s : State) (r : RouteId) (l : Word) : State :=
  let s1 := ((s.rebaseSlots r).discardBuffers r).discardWindow r
  let s2 := (s1.takeOpening r).inboundReset r
  let s3 := s2.updRoute r fun x =>
    { x with
      ctl := { x.ctl with state := .acquire, remoteLife := some l, echo := l, recovered := false, cleared := false,
                          probeTimer := none, marker := none }
      tx := { x.tx with replyDue := true, probeDue := false } }
  let s4 := (s3.latch .remoteRestart).countRoute r .rebases
  if (s.route r).ctl.state = .impaired then s4.latch .routeChange else s4

/-- The value after a life, skipping 0. -/
def nextLife (v : Word) : Word := if v = 0xFFFFFFFF then 1 else v + 1

/-- A new local life (R143): the low 32 bits of the time base, advanced past 0 and the previous life. -/
def newLife (now : Nat) (prev : Word) : Word :=
  let v := BitVec.ofNat 32 now
  let v1 := if v = 0 ∨ v = prev then nextLife v else v
  if v1 = prev then nextLife v1 else v1

/-- Why an OPEN is refused (R143). -/
def State.openRefusal (s : State) (r : RouteId) : Option Reason :=
  let x := s.route r
  if x.ctl.state ≠ .closed then some .notClosed
  else if s.settings.localRegion = 0 then some .noRegion
  else if x.cfg.region = 0 then some .unconfigured
  else if x.cfg.region = s.settings.localRegion then some .regionConflict
  else none

/-- A CLOSED route opens (R143). -/
def State.openRoute (s : State) (r : RouteId) : State :=
  let life := newLife s.now (s.route r).ctl.prevLife
  let s1 := s.updRoute r fun x =>
    { x with
      ctl := { Control.reset with state := .opening, life := life, prevLife := life,
                                  probeTimer := some (s.now + x.cfg.probePeriod.toNat * 1000) }
      tx := { x.tx with probeDue := true } }
  ((s1.takeOpening r).inboundReset r).latch .routeChange

/-! ## Impairment's release, pause, resume (R122, R150, R151) -/

/-- The route leaves IMPAIRED for ACQUIRE (R150): the pacing unit's return values, the whole window listed for resend,
the resend timer started. -/
def State.release (s : State) (r : RouteId) : State :=
  let s1 := s.paceReturn r
  let s2 := s1.updRoute r fun x =>
    { x with
      ctl := { x.ctl with state := .acquire, recovered := false, cleared := false, probeTimer := none }
      tx := { x.tx with
        probeDue := false
        timeouts := 0
        window := x.tx.window.map fun d => { d with onList := true, requested := some s.now }
        resend := x.tx.window.map (·.seq) } }
  let s3 := if (s2.route r).tx.window.isEmpty then s2 else s2.startTimer r s.now
  s3.latch .routeChange

/-- A latch flag is set; with both set the route leaves IMPAIRED (R147, R150). -/
def State.setLatchFlag (s : State) (r : RouteId) (f : Control → Control) : State :=
  let s1 := s.updCtl r f
  if (s1.route r).ctl.recovered ∧ (s1.route r).ctl.cleared then s1.release r else s1

/-- PAUSE at a route that is not CLOSED (R151, R120). -/
def State.pauseRoute (s : State) (r : RouteId) : State :=
  if (s.route r).ctl.paused then s
  else s.updRoute r fun x => { x with ctl := { x.ctl with paused := true }, tx := { x.tx with timer := none } }

/-- RESUME at a route that is not CLOSED (R151, R120). -/
def State.resumeRoute (s : State) (r : RouteId) : State :=
  if (s.route r).ctl.paused then
    let s1 := s.updCtl r fun c => { c with paused := false }
    if !(s.route r).tx.window.isEmpty ∧ (s.route r).ctl.state.inService then s1.startTimer r s.now else s1
  else s

/-! ## Probes (R144 to R147) -/

/-- The probe timer has expired. -/
def State.probeExpired (s : State) (r : RouteId) : Bool := (s.route r).ctl.probeTimer.any fun t => decide (t ≤ s.now)

/-- PROBE_TIMER (R144): the due mark is set and the timer restarts. -/
def execProbeTimer (r : RouteId) (s : State) : Result :=
  if s.probeExpired r then
    .next (s.updRoute r fun x =>
      { x with
        ctl := { x.ctl with probeTimer := some (s.now + x.cfg.probePeriod.toNat * 1000) }
        tx := { x.tx with probeDue := true } })
  else .next s

/-- A reply to life `l` becomes due (R146). -/
def State.dueReply (s : State) (r : RouteId) (l : Word) : State :=
  s.updRoute r fun x => { x with ctl := { x.ctl with echo := l }, tx := { x.tx with replyDue := true } }

/-- A PROBE at a route that is not CLOSED (R146). -/
def State.takeProbe (s : State) (r : RouteId) (p : ProbeFrame) : State :=
  let c := (s.route r).ctl
  match p.openFlag, decide (c.state = .opening), decide (c.remoteLife = some p.life) with
  | true, true, true => s.dueReply r p.life
  | true, true, false => ((s.updCtl r fun c => { c with remoteLife := some p.life }).inboundReset r).dueReply r p.life
  | true, false, true => s.dueReply r p.life
  | true, false, false => s.rebase r p.life
  | false, true, _ => s.countRoute r .probeIgnored
  | false, false, true => s.dueReply r p.life
  | false, false, false => s.countRoute r .probeIgnored

/-- The route enters service on the reply to its open probe (R147). -/
def State.enterService (s : State) (r : RouteId) (l : Word) : State :=
  let s1 := s.updRoute r fun x =>
    { x with
      ctl := { x.ctl with remoteLife := some l, state := .acquire, epoch := 0, probeTimer := none }
      tx := { Transmit.reset with receiptDue := x.tx.receiptDue, replyDue := x.tx.replyDue } }
  (s1.takeOpening r).latch .routeChange

/-- A PROBE_REPLY at a route that is not CLOSED (R147). One that matches at an IMPAIRED route counts nothing, also where the
recovered flag stands already (log entry 38). -/
def State.takeReply (s : State) (r : RouteId) (p : ProbeFrame) : State :=
  let c := (s.route r).ctl
  if c.state = .opening ∧ p.echo = c.life then s.enterService r p.life
  else if c.state = .impaired ∧ p.echo = c.life ∧ c.remoteLife = some p.life then
    s.setLatchFlag r fun c => { c with recovered := true }
  else s.countRoute r .replyIgnored

/-- A probe or reply from the long-haul port (R145). -/
def State.probeArrives (s : State) (f : Frame) (take : State → RouteId → ProbeFrame → State) : State :=
  match readProbe f.payload with
  | none => s.count (.inbound .probeCorrupt)
  | some p =>
    match s.routeOfRegion p.src with
    | none => s.count (.inbound .probeMisrouted)
    | some r =>
      if p.dst ≠ s.settings.localRegion.toNat then s.count (.inbound .probeMisrouted)
      else if (s.route r).ctl.state = .closed then s.countRoute r .probeIgnored
      else take s r p

/-- PROBE (R145, R146). -/
def execProbe (f : Frame) (s : State) : Result :=
  if s.takesKind .longhaul 0x23 f then .next (s.alertFrom (s.probeArrives f State.takeProbe)) else .next s

/-- PROBE_REPLY (R145, R147). -/
def execProbeReply (f : Frame) (s : State) : Result :=
  if s.takesKind .longhaul 0x24 f then .next (s.alertFrom (s.probeArrives f State.takeReply)) else .next s

/-! ## The epoch timer (R154, R155) -/

/-- What a tick does at a route (R155). -/
def State.tickRoute (s : State) (r : RouteId) : State :=
  let c := (s.route r).ctl
  if c.state.inService then
    if c.paused ∨ c.marker.isSome then s.countRoute r .epochDeferred
    else
      let e := seqSucc c.epoch
      (s.updCtl r fun c => { c with epoch := e, marker := some { epoch := e, requested := s.now, seq := none } }).requestMarker r e
  else s

/-- `EPOCH_PERIOD` has passed since the previous tick (R154). -/
def State.tickDue (s : State) : Bool := decide (s.lastTick + s.settings.epochPeriod * 1000 ≤ s.now)

/-- EPOCH_TICK (R39, R154, R155). -/
def execEpochTick (s : State) : Result :=
  if s.tickDue then .next ({ s.policyTurn with lastTick := s.now }.each allRoutes State.tickRoute) else .next s

end Sys2Proof.Machine
end

