-- ==== Sys2Proof/Machine/Management.lean ====
section
/-! DEFINITION. The Management Unit (chapter 11): the parcel queue, the table cursor and its commits, the commands acting
elsewhere, latches, counters and the engine restart; the meanings of CONTROL_PARCEL, BAD_COMMAND and the thirteen rows whose
operands stand in the parcel at the head of the queue. -/

namespace Sys2Proof.Machine

/-! ## The parcel queue (R177) -/

/-- An arriving control parcel joins the queue, or is dropped with `PARCEL_LOST` latched (R177). -/
def State.parcelArrives (s : State) (f : Frame) : State :=
  if s.parcels.length < Config.parcelPlaces then { s with parcels := s.parcels ++ [{ src := f.src, bytes := f.payload }] }
  else (s.count (.management .parcelsDropped)).latch .parcelLost

/-- CONTROL_PARCEL (R177). -/
def execControlParcel (f : Frame) (s : State) : Result :=
  if s.takesKind .cluster 0x30 f then .next (s.alertFrom (s.parcelArrives f)) else .next s

/-- What a command comes to: the state with its effect, its verdict, PARTIAL_DISCARD, and its results. -/
structure Reply where
  state : State
  verdict : ParcelVerdict
  discard : Bool
  results : List Byte
  deriving DecidableEq, Repr

/-- A refusal without results: no state changes. -/
def State.refuse (s : State) (r : Reason) : Reply := { state := s, verdict := .refused r, discard := false, results := [] }

/-- The command's code as received, 0 where the payload does not reach it. -/
def Parcel.command (p : Parcel) : Nat := field p.bytes 1 1

/-- The sequence tag as received, or 0 if it could not be read (R178). -/
def Parcel.tag (p : Parcel) : Nat := if p.bytes.length < 4 then 0 else field p.bytes 2 2

/-- The counter of a verdict beside PARCELS_EXECUTED (R178). -/
def ParcelVerdict.counter : ParcelVerdict → Option MgmtCounter
  | .done => none
  | .refused _ => some .parcelsRefused
  | .partDone _ => some .parcelsPartial

/-- The counts of an executed parcel, made when its status parcel is placed (R178, R191). -/
def State.countParcel (s : State) (v : ParcelVerdict) : State :=
  let s1 := s.count (.management .parcelsExecuted)
  match v.counter with
  | some c => s1.count (.management c)
  | none => s1

/-- The end of a parcel's execution (R177, R178, R189): an alert of the command, the status parcel, the counts, and the
parcel leaves the head of the queue. -/
def State.finish (before : State) (p : Parcel) (y : Reply) : State :=
  let s1 := (before.alertFrom y.state).placeOut p.src (statusPayload p.command p.tag y.verdict y.discard y.results)
  let s2 := s1.countParcel y.verdict
  { s2 with parcels := s2.parcels.drop 1 }

/-- Executes the parcel at the head of the queue if it reads to a command that `run` takes; else nothing happens, because
the row's occasion does not stand. -/
def State.runParcel (s : State) (run : Command → Option Reply) : Result :=
  match s.parcels with
  | [] => .next s
  | p :: _ =>
    match (readParcel p.bytes).bind run with
    | none => .next s
    | some y => .next (s.finish p y)

/-! ## Results of TURN and ROUTE (12.3) -/

/-- The results of TURN, the unnamed bits of byte 5 zero (log entry 42). -/
def State.turnResults (s : State) : List Byte :=
  toBE 4 s.generation.toNat ++ toBE 1 s.active.code ++ toBE 1 (bitByte s.armed 0) ++ toBE 2 0

/-- The results of ROUTE, the unnamed bits of byte 2 zero (log entry 42). -/
def State.routeResults (s : State) (r : RouteId) : List Byte :=
  let c := (s.route r).ctl
  toBE 1 r.val ++ toBE 1 c.state.code ++ toBE 1 (bitByte c.paused 0) ++ toBE 1 0 ++ toBE 4 c.life.toNat

/-- The ROUTE results of a route the part does not have, whose values the spec does not state (log entry 4); `n` is the
route byte, none where it could not be read. -/
def absentResults (v : BitVec 49) (n : Option Nat) : List Byte :=
  toBE 1 (n.getD (v.extractLsb' 41 8).toNat) ++ toBE 1 (v.extractLsb' 0 8).toNat ++ toBE 1 (bitByte (v.getLsbD 8) 0) ++
    toBE 1 0 ++ toBE 4 (v.extractLsb' 9 32).toNat

/-- A refusal for a route the part does not have: its results use one free value. -/
def State.refuseAbsent (s : State) (reason : Reason) (n : Option Nat) : Reply :=
  { state := { s with freeUses := s.freeUses + 1 }, verdict := .refused reason, discard := false,
    results := absentResults (Config.absentRouteResult s.freeUses) n }

/-! ## BAD_COMMAND (R177) -/

/-- The route byte of a ROUTE parcel, where its arguments reach it. -/
def Parcel.routeByte (p : Parcel) : Option Nat :=
  if 9 ≤ p.bytes.length ∧ 1 ≤ field p.bytes 4 2 then some (field p.bytes 8 1) else none

/-- The answer to a parcel that cannot be read: REFUSED, BAD_COMMAND. TURN and ROUTE carry their results with every verdict
(12.3). -/
def State.badReply (s : State) (p : Parcel) : Reply :=
  if p.command = 4 then { state := s, verdict := .refused .badCommand, discard := false, results := s.turnResults }
  else if p.command = 5 then
    match p.routeByte with
    | none => s.refuseAbsent .badCommand none
    | some n =>
      if h : n < 8 then
        { state := s, verdict := .refused .badCommand, discard := false, results := s.routeResults ⟨n, h⟩ }
      else s.refuseAbsent .badCommand (some n)
  else s.refuse .badCommand

/-- BAD_COMMAND (R177). -/
def execBadCommand (s : State) : Result :=
  match s.parcels with
  | [] => .next s
  | p :: _ => if (readParcel p.bytes).isNone then .next (s.finish p (s.badReply p)) else .next s

/-! ## The table cursor (11.2) -/

/-- A table's entry count. -/
def TableName.entries : TableName → Nat
  | .windows => 8
  | .placementMap => 16384
  | .policyStandby => 256
  | .policyActive => 256
  | .routes => 8
  | .localEntry => 1

/-- A table's words per entry. -/
def TableName.width : TableName → Nat
  | .windows => 4
  | .placementMap => 1
  | .policyStandby => 6
  | .policyActive => 6
  | .routes => 8
  | .localEntry => 8

/-- The cursor stands at the end of its table (R179). -/
def Cursor.atEnd (c : Cursor) : Bool := decide (c.table.entries ≤ c.index)

/-- SELECT's judgement and effect (R180). -/
def State.runSelect (s : State) (t : TableName) (write : Bool) (index : Nat) : Reply :=
  if t.entries ≤ index then s.refuse .outOfRange
  else if t = .policyActive ∧ write then s.refuse .wrongMode
  else
    { state := { s with cursor := { table := t, index := index, pos := 0, write := write, staged := [] } }
      verdict := .done
      discard := !s.cursor.staged.isEmpty
      results := toBE 1 t.code ++ toBE 1 (bitByte write 0) ++ toBE 2 index }

/-- SELECT (R180). -/
def execSelect (s : State) : Result :=
  s.runParcel fun c => match c with
    | .select t w i => some (s.runSelect t w i)
    | _ => none

/-! ## Commits (R21, R27, R35, R36, R141, R185) -/

/-- The checks of a route entry, in the order of R141. -/
def State.routeOk (s : State) (i : Nat) (ws : List Word) : Bool :=
  let c := RouteCfg.ofWords ws
  c.region != 0 && c.region != s.settings.localRegion &&
    allRoutes.all (fun r => r.val == i || (s.route r).cfg.region != c.region) &&
    c.addr != 0 && individual c.addr &&
    decide (1 ≤ c.ceil.toNat) && decide (c.ceil.toNat ≤ 100000) &&
    decide (1 ≤ c.floor.toNat) && decide (c.floor.toNat ≤ c.startRate.toNat) && decide (c.startRate.toNat ≤ c.ceil.toNat) &&
    decide (1 ≤ c.burst.toNat) && decide (c.burst.toNat ≤ 256) &&
    decide (1000 ≤ c.srttInit.toNat) && decide (c.srttInit.toNat ≤ 2000000) && decide (c.rtoPad.toNat ≤ 100000) &&
    decide (10 ≤ c.probePeriod.toNat) && decide (c.probePeriod.toNat ≤ 10000) &&
    wordAt ws 0 &&& 0xFFFFFFC0#32 == 0 && wordAt ws 1 &&& 0xFFFF0000#32 == 0 && wordAt ws 3 &&& 0xFFFE0000#32 == 0 &&
    wordAt ws 4 &&& 0xFFFE0000#32 == 0 && wordAt ws 5 &&& 0xFFFE0000#32 == 0 && wordAt ws 6 &&& 0x00600000#32 == 0 &&
    wordAt ws 7 &&& 0x80000000#32 == 0

/-- Every field of the settings lies in its range (11.3). -/
def Settings.inRange (c : Settings) : Bool :=
  c.clusterAddr != 0 && individual c.clusterAddr && c.longAddr != 0 && individual c.longAddr &&
    decide (0x0600 ≤ c.frameType.toNat) && individual c.mgmtStation &&
    decide (10 ≤ c.epochPeriod) && decide (c.epochPeriod ≤ 60000) &&
    decide (65536 ≤ c.cutThrough) && decide (c.cutThrough ≤ 67108864) && decide (c.spanHold ≤ 20000) &&
    decide (100 ≤ c.receiptDelay) && decide (c.receiptDelay ≤ 10000) && decide (c.inboundReserve ≤ 32768) &&
    decide (c.poolLowMark ≤ 32768) && decide (100 ≤ c.deliveryWait) && decide (c.deliveryWait ≤ 60000)

/-- Every route is CLOSED. -/
def State.allClosed (s : State) : Bool := allRoutes.all fun r => (s.route r).ctl.state == .closed

/-- The checks of a LOCAL entry (R185); it has no reserved bit (12.4). -/
def State.localOk (s : State) (ws : List Word) : Bool :=
  let c := Settings.ofWords ws
  c.inRange && (c.localRegion == s.settings.localRegion || s.allClosed)

/-- A window is written whole. -/
def State.setWindow (s : State) (i : Nat) (w : Window) : State :=
  if h : i < 8 then { s with windows := s.windows.set i w h } else s

/-- A map entry is written; a zero one is not listed. -/
def State.setMapEntry (s : State) (i : Nat) (e : MapEntry) : State :=
  { s with pmap := Table.setD s.pmap MapEntry.reset i e }

/-- A route's configuration is written whole. -/
def State.setCfg (s : State) (i : Nat) (c : RouteCfg) : State :=
  if h : i < 8 then s.updRoute ⟨i, h⟩ fun x => { x with cfg := c } else s

/-- A completed entry is checked by the rule that owns its table and, if it passes, committed (R181); none if it fails. -/
def State.commitEntry (s : State) (t : TableName) (i : Nat) (ws : List Word) : Option State :=
  match t with
  | .windows => if windowOk ws then some (s.setWindow i (Window.ofWords ws)) else none
  | .placementMap => if mapOk (wordAt ws 0) then some (s.setMapEntry i (MapEntry.ofWord (wordAt ws 0))) else none
  | .policyStandby => if policyOk ws then some (s.setPolicy s.active.other i (policyOf ws)) else none
  | .policyActive => none
  | .routes => if s.routeOk i ws then some (s.setCfg i (RouteCfg.ofWords ws)) else none
  | .localEntry => if s.localOk ws then some (State.testPoolLow { s with settings := Settings.ofWords ws }) else none

/-! ## STAGE (R181, R182) -/

/-- A STAGE as it goes through its words. -/
structure StageRun where
  state : State
  committed : Nat
  failed : Nat
  firstFailed : Option Nat
  taken : Nat
  refusedEnd : Nat
  deriving DecidableEq, Repr

/-- The cursor once an entry is complete: nothing staged, position 0, the index advanced by one (R181). -/
def Cursor.nextEntry (c : Cursor) : Cursor := { c with index := c.index + 1, pos := 0, staged := [] }

/-- One word is taken (R181). -/
def StageRun.takeWord (x : StageRun) (w : Word) : StageRun :=
  let c := x.state.cursor
  let ws := c.staged ++ [w]
  if c.pos + 1 = c.table.width then
    match x.state.commitEntry c.table c.index ws with
    | some s1 =>
      { x with state := { s1 with cursor := c.nextEntry }, committed := x.committed + 1, taken := x.taken + 1 }
    | none =>
      { x with
        state := { x.state with cursor := c.nextEntry }
        failed := x.failed + 1
        firstFailed := some (x.firstFailed.getD c.index)
        taken := x.taken + 1 }
  else { x with state := { x.state with cursor := { c with pos := c.pos + 1, staged := ws } }, taken := x.taken + 1 }

/-- The words of a STAGE in order; those left at the end of the table are not taken (R181). -/
def StageRun.words (x : StageRun) : List Word → StageRun
  | [] => x
  | w :: ws => if x.state.cursor.atEnd then { x with refusedEnd := ws.length + 1 } else (x.takeWord w).words ws

/-- A word of a STAGE of `n` words would fall into the entry of a route that is not CLOSED (R182). -/
def State.stageMeetsRoute (s : State) (n : Nat) : Bool :=
  allRoutes.any fun r =>
    decide (s.cursor.index ≤ r.val) && decide (8 * (r.val - s.cursor.index) < s.cursor.pos + n) &&
      (s.route r).ctl.state != .closed

/-- Why a STAGE of `n` words is refused whole (R181, R182, R37). -/
def State.stageRefusal (s : State) (n : Nat) : Option Reason :=
  if !s.cursor.write then some .wrongMode
  else if s.cursor.atEnd then some .outOfRange
  else if s.cursor.table = .policyStandby ∧ s.armed then some .standbyLocked
  else if s.cursor.table = .routes ∧ s.stageMeetsRoute n then some .routeActive
  else none

/-- The verdict of a STAGE that was taken (R181). -/
def StageRun.verdict (x : StageRun) : ParcelVerdict :=
  if 0 < x.refusedEnd then .partDone (some .outOfRange) else if 0 < x.failed then .partDone none else .done

/-- The results of STAGE (12.3). -/
def StageRun.results (x : StageRun) : List Byte :=
  toBE 2 x.committed ++ toBE 2 x.failed ++ toBE 2 (x.firstFailed.getD 0xFFFF) ++ toBE 2 x.taken ++ toBE 2 x.refusedEnd ++
    toBE 2 x.state.cursor.index ++ toBE 1 x.state.cursor.pos ++ toBE 1 0

/-- A STAGE before its first word. -/
def StageRun.start (s : State) : StageRun :=
  { state := s, committed := 0, failed := 0, firstFailed := none, taken := 0, refusedEnd := 0 }

/-- STAGE's judgement and effect (R181, R182). -/
def State.runStage (s : State) (ws : List Word) : Reply :=
  match s.stageRefusal ws.length with
  | some r => s.refuse r
  | none =>
    let x := (StageRun.start s).words ws
    { state := x.state, verdict := x.verdict, discard := false, results := x.results }

/-- STAGE (R181, R182). -/
def execStage (s : State) : Result :=
  s.runParcel fun c => match c with
    | .stage ws => some (s.runStage ws)
    | _ => none

/-! ## FETCH (R183) -/

/-- The words of an entry as last committed (R32, R34, R36, R183). -/
def State.entryWords (s : State) (t : TableName) (i : Nat) : List Word :=
  match t with
  | .windows => ((s.windows[i]?).map Window.words).getD []
  | .placementMap => [(s.mapEntry i).word]
  | .policyStandby => policyWords (Table.find (s.bank s.active.other) i)
  | .policyActive => policyWords (Table.find (s.bank s.active) i)
  | .routes => ((s.routes[i]?).map fun x => x.cfg.words).getD []
  | .localEntry => s.settings.words

/-- The words a FETCH of `n` reads from index `i` and position `k` of a table, and where it stops. -/
def State.fetchWords (s : State) (t : TableName) : Nat → Nat → Nat → List Word × Nat × Nat
  | 0, i, k => ([], i, k)
  | n + 1, i, k =>
    if t.entries ≤ i then ([], i, k)
    else
      let r := if k + 1 = t.width then s.fetchWords t n (i + 1) 0 else s.fetchWords t n i (k + 1)
      (wordAt (s.entryWords t i) k :: r.1, r.2)

/-- The results of FETCH (12.3). -/
def fetchResults (ws : List Word) (i k : Nat) : List Byte :=
  toBE 2 i ++ toBE 1 k ++ toBE 1 0 ++ toBE 2 ws.length ++ toBE 2 0 ++ ws.flatMap fun w => toBE 4 w.toNat

/-- FETCH's judgement and effect (R183). -/
def State.runFetch (s : State) (n : Nat) : Reply :=
  if s.cursor.write then s.refuse .wrongMode
  else
    let y := s.fetchWords s.cursor.table n s.cursor.index s.cursor.pos
    { state := { s with cursor := { s.cursor with index := y.2.1, pos := y.2.2 } }
      verdict := .done
      discard := false
      results := fetchResults y.1 y.2.1 y.2.2 }

/-- FETCH (R183). -/
def execFetch (s : State) : Result :=
  s.runParcel fun c => match c with
    | .fetch n => some (s.runFetch n)
    | _ => none

/-! ## TURN (R38) -/

/-- TURN's judgement and effect (R38). -/
def State.runTurn (s : State) : Reply :=
  if s.armed then { state := s, verdict := .refused .turnPending, discard := false, results := s.turnResults }
  else
    let drop := s.cursor.table == .policyStandby && !s.cursor.staged.isEmpty
    let s1 := { s with armed := true, cursor := if drop then { s.cursor with pos := 0, staged := [] } else s.cursor }
    { state := s1, verdict := .done, discard := drop, results := s1.turnResults }

/-- TURN (R38). -/
def execTurn (s : State) : Result :=
  s.runParcel fun c => match c with
    | .turn => some s.runTurn
    | _ => none

/-! ## ROUTE (R143, R150, R151, R152, R186) -/

/-- A ROUTE action at a route: refused where `refusal` says, else the effect, answered DONE; the results are the route's as
they then stand. -/
def State.actRoute (s : State) (n : Nat) (refusal : RouteId → Option Reason) (act : RouteId → State) : Reply :=
  if h : n < 8 then
    match refusal ⟨n, h⟩ with
    | some r => { state := s, verdict := .refused r, discard := false, results := s.routeResults ⟨n, h⟩ }
    | none =>
      { state := act ⟨n, h⟩, verdict := .done, discard := false, results := (act ⟨n, h⟩).routeResults ⟨n, h⟩ }
  else s.refuseAbsent .outOfRange (some n)

/-- PAUSE and RESUME are refused at a CLOSED route (R151). -/
def State.closedRefusal (s : State) (r : RouteId) : Option Reason :=
  if (s.route r).ctl.state = .closed then some .routeClosed else none

/-- Why CLEAR_IMPAIRED is refused (R150). -/
def State.clearRefusal (s : State) (r : RouteId) : Option Reason :=
  let c := (s.route r).ctl
  if c.state = .closed then some .routeClosed
  else if c.state ≠ .impaired then some .notImpaired
  else if c.paused then some .paused
  else none

/-- The close of a route, which changes nothing at a CLOSED one (R152). -/
def State.closeIfOpen (s : State) (r : RouteId) : State := if (s.route r).ctl.state = .closed then s else s.closeRoute r

/-- CLEAR_IMPAIRED's effect (R150): the cleared flag is set; set already, nothing changes. -/
def State.clearImpairment (s : State) (r : RouteId) : State :=
  if (s.route r).ctl.cleared then s else s.setLatchFlag r fun c => { c with cleared := true }

/-- ROUTE_OPEN (R143, R186). -/
def execRouteOpen (s : State) : Result :=
  s.runParcel fun c => match c with
    | .route n .openRoute => some (s.actRoute n s.openRefusal s.openRoute)
    | _ => none

/-- ROUTE_CLOSE (R152, R186). -/
def execRouteClose (s : State) : Result :=
  s.runParcel fun c => match c with
    | .route n .closeRoute => some (s.actRoute n (fun _ => none) s.closeIfOpen)
    | _ => none

/-- PAUSE (R151, R186). -/
def execPause (s : State) : Result :=
  s.runParcel fun c => match c with
    | .route n .pause => some (s.actRoute n s.closedRefusal s.pauseRoute)
    | _ => none

/-- RESUME (R151, R186). -/
def execResume (s : State) : Result :=
  s.runParcel fun c => match c with
    | .route n .resume => some (s.actRoute n s.closedRefusal s.resumeRoute)
    | _ => none

/-- CLEAR_IMPAIRED (R150, R186). -/
def execClearImpaired (s : State) : Result :=
  s.runParcel fun c => match c with
    | .route n .clearImpaired => some (s.actRoute n s.clearRefusal s.clearImpairment)
    | _ => none

/-! ## STATUS (R187) -/

/-- A STATUS route block (12.3). -/
def State.routeBlock (s : State) (r : RouteId) : List Byte :=
  let x := s.route r
  toBE 1 x.ctl.state.code ++
    toBE 1 (bitByte x.ctl.paused 0 + bitByte x.ctl.marker.isSome 1 + bitByte x.ctl.settledFault 2) ++ toBE 2 0 ++
    toBE 4 x.ctl.life.toNat ++ toBE 4 x.pace.rate ++ toBE 4 x.pace.srtt ++ toBE 4 x.tx.window.length ++ toBE 4 x.tx.inFlight ++
    toBE 4 x.ctl.epoch.toNat ++ toBE 4 x.ctl.settledEpoch.toNat ++
    toBE 8 ((x.ctl.marker.map fun m => s.now - m.requested).getD 0)

/-- The fault record as STATUS reports it: absent while CONFIG_FAULT reads clear through the mask (R29, R187). -/
def State.reportedFault (s : State) : Option FaultRecord :=
  if (s.latches &&& s.mask).getLsbD EventClass.configFault.pos then s.faultRecord else none

/-- The map index in STATUS's four bytes. A BEYOND_MAP index can be 2^32 or more (R25), which the spec gives no form in them:
there a free value stands for it (log entry 34). -/
def reportedIndex (m : Nat) : Nat := if m < 2 ^ 32 then m else (Config.wideMapIndex m).toNat

/-- Bytes 24 to 35 of STATUS's results: the fault record (R29, R187). -/
def faultBytes : Option FaultRecord → List Byte
  | none => toBE 12 0
  | some f =>
    toBE 1 1 ++ toBE 1 f.kind.code ++ toBE 1 f.window ++ toBE 1 0 ++ toBE 4 f.bucket.toNat ++ toBE 4 (reportedIndex f.index)

/-- The results of STATUS (12.3), the unnamed bits of its flag bytes zero (log entry 42). -/
def State.statusResults (s : State) : List Byte :=
  toBE 4 s.generation.toNat ++ toBE 1 s.active.code ++ toBE 1 (bitByte s.armed 0) ++ toBE 2 0 ++ toBE 4 s.pool.count ++
    toBE 2 s.records.length ++ toBE 2 s.assemblies.length ++ toBE 2 s.deliveryQ.length ++ toBE 2 (s.latches &&& s.mask).toNat ++
    toBE 2 s.mask.toNat ++ toBE 2 0 ++ faultBytes s.reportedFault ++ allRoutes.flatMap s.routeBlock

/-- STATUS (R187). -/
def execStatus (s : State) : Result :=
  s.runParcel fun c => match c with
    | .status => some { state := s, verdict := .done, discard := false, results := s.statusResults }
    | _ => none

/-! ## COUNTERS (R191) -/

/-- The values of the `n` counters of a group. -/
def State.groupValues (s : State) (g n : Nat) : List Nat := (List.range n).map fun i => Table.getD s.counters 0 (counterKey g i)

/-- The counters with every counter of a group at 0. -/
def clearGroup (t : Table Nat) (g : Nat) : Table Nat := t.filter fun e => e.1 / 64 != g

/-- COUNTERS' judgement and effect (R191). -/
def State.runCounters (s : State) (g : Nat) (clear : Bool) : Reply :=
  match groupSize g with
  | none => s.refuse .outOfRange
  | some n =>
    { state := if clear then { s with counters := clearGroup s.counters g } else s
      verdict := .done
      discard := false
      results := toBE 1 g ++ toBE 1 0 ++ toBE 2 n ++ (s.groupValues g n).flatMap (toBE 6) }

/-- COUNTERS (R191). -/
def execCounters (s : State) : Result :=
  s.runParcel fun c => match c with
    | .counters g k => some (s.runCounters g k)
    | _ => none

/-! ## EVENTS (R188, R190) -/

/-- Some route is IMPAIRED. -/
def State.anyImpaired (s : State) : Bool := allRoutes.any fun r => (s.route r).ctl.state == .impaired

/-- The classes whose lasting condition holds (R188). -/
def State.lasting (s : State) : BitVec 13 :=
  (if s.anyImpaired then EventClass.routeImpaired.bit else 0) ||| (if s.poolLow then EventClass.poolLow.bit else 0) |||
    (if s.recordsLow then EventClass.recordsLow.bit else 0)

/-- Each named class clears while its lasting condition does not hold (R188); clearing CONFIG_FAULT makes its fault record
absent (R29). -/
def State.clearLatches (s : State) (clear : BitVec 13) : State :=
  { s with
    latches := s.latches &&& ~~~(clear &&& ~~~s.lasting)
    faultRecord := if clear.getLsbD EventClass.configFault.pos then none else s.faultRecord }

/-- EVENTS' effect in R190's order: clear, mask, alert for a latched class newly enabled. -/
def State.takeEvents (s : State) (mask clear : BitVec 13) : State :=
  let s1 := { s.clearLatches clear with mask := mask }
  if s1.latches &&& mask &&& ~~~s.mask = 0 then s1 else s1.sendAlert

/-- EVENTS' reply (R190). -/
def State.runEvents (s : State) (mask clear : BitVec 13) : Reply :=
  let s1 := s.takeEvents mask clear
  { state := s1, verdict := .done, discard := false, results := toBE 2 (s1.latches &&& s1.mask).toNat ++ toBE 2 s1.mask.toNat }

/-- EVENTS (R190). -/
def execEvents (s : State) : Result :=
  s.runParcel fun c => match c with
    | .events m k => some (s.runEvents m k)
    | _ => none

/-! ## RESTART (R192) -/

/-- A route after an engine restart: power-on values, its configuration kept, and the previous life the one it last had
(R140, R142). -/
def Route.restarted (x : Route) : Route :=
  { Route.reset with
    cfg := x.cfg
    ctl := { Control.reset with prevLife := if x.ctl.life = 0 then x.ctl.prevLife else x.ctl.life } }

/-- A frame an engine restart leaves in the cluster output queue: a status or an alert parcel (R4). -/
def OutFrame.isParcel (o : OutFrame) : Bool := o.payload.head? == some 0x31 || o.payload.head? == some 0x32

/-- The engine restart (R192): power-on values, with what R192 keeps. Frames on the wire go out whole (R110), and the source
the cluster transmitter served last stands (R5). -/
def State.restart (s : State) : State :=
  { State.powerOn s.clusterPins s.longPins with
    now := s.now, clusterUp := s.clusterUp, longUp := s.longUp, passOut := s.passOut, passIn := s.passIn,
    outQ := s.outQ.filter OutFrame.isParcel, clusterTx := s.clusterTx, clusterLast := s.clusterLast, longTx := s.longTx,
    windows := s.windows, pmap := s.pmap, bankA := s.bankA, bankB := s.bankB, active := s.active, generation := s.generation,
    dram := s.dram, routes := s.routes.map Route.restarted, lastTick := s.lastTick, pacingNext := s.pacingNext,
    parcels := s.parcels, cursor := { s.cursor with pos := 0, staged := [] }, mask := s.mask, settings := s.settings,
    freeUses := s.freeUses, pending := s.pending }

/-- RESTART (R192). -/
def execRestart (s : State) : Result :=
  s.runParcel fun c => match c with
    | .restart => some { state := s.restart, verdict := .done, discard := !s.cursor.staged.isEmpty, results := [] }
    | _ => none

end Sys2Proof.Machine
end

