-- ==== Sys2Proof/Machine/Ports.lean ====
section
/-! DEFINITION. The ports (1.1): pass-through, foreign frames, the cluster transmitter, the two links and power-on; the
meanings of POWER_ON, LINK_DOWN, LINK_UP, PASS_THROUGH, FRAME_DROP_FOREIGN, CLUSTER_TRANSMIT and TRANSMIT_COMPLETE. -/

namespace Sys2Proof.Machine

/-- POWER_ON (R184 and each block's own rule): every block at its power-on values, the station addresses from the strap
pins. -/
def execPowerOn (s : State) : Result :=
  .next { State.powerOn s.clusterPins s.longPins with freeUses := s.freeUses, pending := s.pending }

/-- A frame from the cluster port is offered to the FIFO toward the long-haul port (R3). -/
def State.offerOut (s : State) (f : Frame) : State :=
  if s.longUp ∧ s.passOut.length < Config.passPlaces then { s with passOut := s.passOut ++ [f] }
  else s.count (.ports .passDropOut)

/-- A frame from the long-haul port is offered to the FIFO toward the cluster port (R3). -/
def State.offerIn (s : State) (f : Frame) : State :=
  if s.clusterUp ∧ s.passIn.length < Config.passPlaces then { s with passIn := s.passIn ++ [f] }
  else s.count (.ports .passDropIn)

/-- PASS_THROUGH (R1, R3): a frame the port does not take. -/
def execPassThrough (p : Port) (f : Frame) (s : State) : Result :=
  if s.takes p f then .next s
  else
    match p with
    | .cluster => .next (s.offerOut f)
    | .longhaul => .next (s.offerIn f)

/-- How a taken frame of kind `k` is counted when the port drops it (the table of R2); none for a kind that belongs to the
port. -/
def foreignCounter (p : Port) (k : Option Byte) : Option PortCounter :=
  match k with
  | none => some .unknownKind
  | some k =>
    if p.ownKinds.contains k then none
    else if k = 0x30 then some .parcelForeign
    else if Port.cluster.ownKinds.contains k then some .eventForeign
    else if Port.longhaul.ownKinds.contains k then some .spanForeign
    else some .unknownKind

/-- FRAME_DROP_FOREIGN (R2). -/
def execFrameDropForeign (p : Port) (f : Frame) (s : State) : Result :=
  if s.takes p f then
    match foreignCounter p f.kind with
    | some c => .next (s.count (.ports c))
    | none => .next s
  else .next s

/-- The source the cluster transmitter serves next (R5): the one it did not serve last, if it holds a frame. -/
def State.nextSource (s : State) : Option TxSource :=
  match s.passIn.isEmpty, s.outQ.isEmpty with
  | true, true => none
  | false, true => some .fifo
  | true, false => some .queue
  | false, false => some (match s.clusterLast with | .fifo => .queue | .queue => .fifo)

/-- The cluster transmitter may start a frame (R5). -/
def State.clusterReady (s : State) : Bool := s.clusterTx.isNone && s.clusterUp && s.nextSource.isSome

/-- CLUSTER_TRANSMIT (R5). -/
def execClusterTransmit (s : State) : Result :=
  if s.clusterReady then
    match s.nextSource, s.passIn, s.outQ with
    | some .fifo, f :: rest, _ => .next { s with passIn := rest, clusterTx := some f, clusterLast := .fifo }
    | some .queue, _, o :: rest =>
      .next { s with outQ := rest, clusterTx := some (s.ownFrame .cluster o.dst o.payload), clusterLast := .queue }
    | _, _, _ => .next s
  else .next s

/-- TRANSMIT_COMPLETE (R110): the transmitter becomes idle. -/
def execTransmitComplete (p : Port) (s : State) : Result :=
  match p with
  | .cluster => .next { s with clusterTx := none }
  | .longhaul => .next { s with longTx := none }

/-- A lane at cluster link loss (R19): a STREAMING lane's record fails without an answer; every lane becomes IDLE. -/
def State.abortLane (s : State) (l : LaneId) : State :=
  match (s.lane l).state with
  | .streaming =>
    ((s.failRecord (s.lane l).record).count (.ingest .laneAbort)).setLane l { s.lane l with state := .idle }
  | .idle | .skip => s.setLane l { s.lane l with state := .idle }

/-- Link down on the cluster port (R3, R4, R6, R19, R175). -/
def State.clusterDown (s : State) : State :=
  let s1 := (s.countBy s.passIn.length (.ports .passDropIn)).countBy s.outQ.length (.ports .clusterOutDrop)
  let s2 := { s1 with clusterUp := false, passIn := [], outQ := [], clusterTx := none }
  let s3 := (s2.latch .linkLoss).count (.ports .clusterLinkDown)
  (s3.each allLanes State.abortLane).giveUpDeliveries

/-- A route at long-haul link loss (R149). -/
def State.routeLinkLoss (s : State) (r : RouteId) : State :=
  match (s.route r).ctl.state with
  | .acquire | .track => s.impair r
  | .impaired => s.updCtl r fun c => { c with recovered := false }
  | .closed | .opening => s

/-- Link down on the long-haul port (R3, R6, R110, R149). -/
def State.longDown (s : State) : State :=
  let s1 := s.countBy s.passOut.length (.ports .passDropOut)
  let s2 := { s1 with longUp := false, passOut := [], longTx := none }
  ((s2.latch .linkLoss).count (.ports .longhaulLinkDown)).each allRoutes State.routeLinkLoss

/-- LINK_DOWN (R6). -/
def execLinkDown (p : Port) (s : State) : Result :=
  match p with
  | .cluster => .next (s.alertFrom s.clusterDown)
  | .longhaul => .next (s.alertFrom s.longDown)

/-- At cluster link up every OWED notice with a fixed outcome is placed, in record number order (R67). -/
def State.flushNotices (s : State) : State := s.each (s.records.map (·.1)) State.recordCheck

/-- LINK_UP (R6, R67, R171). -/
def execLinkUp (p : Port) (s : State) : Result :=
  match p with
  | .cluster => .next (State.flushNotices { s with clusterUp := true }).startDeliveries
  | .longhaul => .next { s with longUp := true }

end Sys2Proof.Machine
end

