-- ==== Sys2Proof/Machine/Clock.lean ====
section
/-! DEFINITION. What the part does of itself as time passes (log entry 1): the timers that are due and the engines that can
act, as commands of their own rows, and the tick of the microsecond time base. -/

namespace Sys2Proof.Machine

/-- The command, if `b` holds. -/
def when (b : Bool) (i : Instr) : List Instr := if b then [i] else []

/-- The span hold of a route has expired with no packable work (R94). -/
def State.holdDue (s : State) (r : RouteId) : Bool := s.holdPassed r && !s.hasWork r

/-- The receipt-pending time of a route has run out and the mark does not stand yet (R170). -/
def State.receiptDelayDue (s : State) (r : RouteId) : Bool := s.receiptDelayPassed r && !(s.route r).tx.receiptDue

/-- The timers due on a route (R94, R120, R144, R170). -/
def State.routeTimers (s : State) (r : RouteId) : List Instr :=
  when (s.holdDue r) (.spanHoldExpiry r) ++ when (s.timerExpired r) (.resendTimeout r) ++
    when (s.probeExpired r) (.probeTimer r) ++ when (s.receiptDelayDue r) (.receiptDelayExpiry r)

/-- The timers due (R127, R154, R174 and those of the routes). -/
def State.timersDue (s : State) : List Instr :=
  when s.pacingDue .pacingInterval ++ when s.tickDue .epochTick ++ allRoutes.flatMap s.routeTimers ++
    allDLanes.flatMap fun l => when (s.deliveryExpired l) (.deliveryTimeout l)

/-- The row of a readable command. -/
def Command.row : Command → Instr
  | .select _ _ _ => .select
  | .stage _ => .stage
  | .fetch _ => .fetch
  | .turn => .turn
  | .route _ .openRoute => .routeOpen
  | .route _ .closeRoute => .routeClose
  | .route _ .pause => .pause
  | .route _ .resume => .resume
  | .route _ .clearImpaired => .clearImpaired
  | .status => .status
  | .counters _ _ => .counters
  | .events _ _ => .events
  | .restart => .restart

/-- The row of the parcel at the head of the queue (R177). -/
def State.headRow (s : State) : List Instr :=
  match s.parcels with
  | [] => []
  | p :: _ => [((readParcel p.bytes).map Command.row).getD .badCommand]

/-- A delivery lane has a replica frame to place, or to hold ready (R172, R4). -/
def State.laneActs (s : State) (l : DeliveryLaneId) : Bool :=
  (s.dlane l).state == .sending && (s.replicaRoom l || !(s.dlane l).waiting)

/-- The engines that can act: builders, delivery lanes, the Management Unit and the two transmitters. -/
def State.enginesReady (s : State) : List Instr :=
  (allRoutes.flatMap fun r => when (s.mayPlace r) (.segmentPlace r)) ++
    (allDLanes.flatMap fun l => when (s.laneActs l) (.deliveryFramePlace l)) ++ s.headRow ++
    when s.granted.isSome .longhaulGrant ++ when s.clusterReady .clusterTransmit

/-- The part's own events at the present time, in the order the model takes them (log entry 1). -/
def State.ownEvents (s : State) : List Instr := s.timersDue ++ s.enginesReady

/-- A tick of the time base with nothing waiting: one microsecond passes, and the part's own events join the queue. -/
def State.tick (s : State) : State :=
  let s1 := { s with now := s.now + 1 }
  { s1 with pending := s1.ownEvents }

/-- The state with a command put at the front of its queue. -/
def State.push (s : State) (i : Instr) : State := { s with pending := i :: s.pending }

end Sys2Proof.Machine
end

