-- ==== Sys2Proof/Machine/Ingest.lean ====
section
/-! DEFINITION. The Ingest Unit (1.2 to 1.6): the meanings of OPEN, BODY, SEAL, ERASE and DROP. -/

namespace Sys2Proof.Machine

/-- Places an ingest answer in the cluster output queue (R7). -/
def State.answer (s : State) (station : Addr) (lane : Nat) (key : Digest) (stamp : Stamp) (v : Verdict) : State :=
  s.placeOut station (answerPayload lane key stamp v)

/-- Answers the object a lane holds, to the lane's answer station (R7). -/
def State.answerLane (s : State) (l : LaneId) (v : Verdict) : State :=
  s.answer (s.lane l).station l.val (s.lane l).key (s.lane l).stamp v

/-- Sets a lane's state. -/
def State.setLaneState (s : State) (l : LaneId) (st : LaneState) : State := s.setLane l { s.lane l with state := st }

/-- The MALFORMED answer (R7, R8), to the frame's source: the lane, key digest and version stamp as received if the frame
is an OPEN or ERASE that reaches past them, else the lane if it could be read and zero. -/
def State.answerMalformed (s : State) (f : Frame) (keyed : Bool) : State :=
  let p := f.payload
  let whole := keyed && decide (24 ≤ p.length)
  (s.answer f.src (field p 1 1) (if whole then field64 p 8 else 0) (if whole then field64 p 16 else 0) .malformed).count
    (.ingest .malformedEvent)

/-- Ends a STREAMING lane's object with a failing verdict: the answer goes out, then the record fails; the lane goes to
`st` (R13, R14, R17, R18). -/
def State.failObject (s : State) (l : LaneId) (v : Verdict) (st : LaneState) : State :=
  ((s.answerLane l v).failRecord (s.lane l).record).setLaneState l st

/-- An OPEN or ERASE first ends what its lane holds (R13). -/
def State.endHeld (s : State) (l : LaneId) : State :=
  match (s.lane l).state with
  | .idle => s
  | .streaming => s.failObject l .badSequence .idle
  | .skip => s.setLaneState l .idle

/-- Steps 1 and 2 of R10: placement, then the policy looked up in the ACTIVE bank (R41). -/
def State.findPolicy (s : State) (b : Word) : (Verdict ⊕ Policy) × State :=
  match s.classify b with
  | (.inl v, s1) => (.inl v, s1)
  | (.inr i, s1) =>
    match s1.activePolicy i with
    | none => (.inl .unplaced, s1.count (.ingest .policyAbsent))
    | some p => (.inr p, s1)

/-- The PUT request of an OPEN under a policy (R10 step 3, R42). -/
def openRequest (f : Frame) (o : OpenFrame) (generation : Word) (p : Policy) : RecordRequest :=
  { kind := .put, bucket := o.bucket, key := o.key, stamp := o.stamp, length := o.length, check := o.check, station := f.src,
    cls := p.cls, quorum := p.quorum, early := p.early, generation := generation, dests := p.dests }

/-- The ERASE request under a policy (R12, R43). -/
def eraseRequest (f : Frame) (o : EraseFrame) (generation : Word) (p : Policy) : RecordRequest :=
  { kind := .erase, bucket := o.bucket, key := o.key, stamp := o.stamp, length := 0, check := 0, station := f.src,
    cls := p.cls, quorum := p.eraseQuorum, early := p.early, generation := generation, dests := p.dests.filter (·.erases) }

/-- Step 4 of R10: the extents of record `n`; the verdict is FULL when the request is refused (R51, R74). -/
def State.takeExtents (s : State) (n len : Nat) : Option Verdict × State :=
  if len = 0 then (none, s)
  else if s.grantsOut (extentsFor len) then
    let g := s.grant (extentsFor len)
    (none, g.2.updRecord n fun x => { x with extents := g.1 })
  else (some .full, (s.withdraw n).count (.ingest .extentRefusedOut))

/-- The lane context an accepted OPEN fills (R11). -/
def Lane.opened (f : Frame) (o : OpenFrame) (n : Nat) : Lane :=
  { state := .streaming, record := n, station := f.src, key := o.key, stamp := o.stamp, declared := o.length, check := o.check,
    ingested := 0, crc := crcInit, early := false }

/-- An OPEN refused at one of R10's steps: answered at once, and the lane goes to SKIP. -/
def State.refuseOpen (s : State) (f : Frame) (o : OpenFrame) (v : Verdict) : State :=
  (s.answer f.src o.lane.val o.key o.stamp v).setLaneState o.lane .skip

/-- An OPEN taken on an IDLE lane (R10, R11). -/
def State.openIdle (s : State) (f : Frame) (o : OpenFrame) : State :=
  match s.findPolicy o.bucket with
  | (.inl v, s1) => s1.refuseOpen f o v
  | (.inr p, s1) =>
    match s1.createRecord (openRequest f o s1.generation p) with
    | (.inl v, s2) => s2.refuseOpen f o v
    | (.inr n, s2) =>
      match s2.takeExtents n o.length with
      | (some v, s3) => s3.refuseOpen f o v
      | (none, s3) => s3.setLane o.lane (Lane.opened f o n)

/-- An ERASE taken on an IDLE lane (R12). -/
def State.eraseIdle (s : State) (f : Frame) (o : EraseFrame) : State :=
  match s.findPolicy o.bucket with
  | (.inl v, s1) => s1.answer f.src o.lane.val o.key o.stamp v
  | (.inr p, s1) =>
    match s1.createRecord (eraseRequest f o s1.generation p) with
    | (.inl v, s2) => s2.answer f.src o.lane.val o.key o.stamp v
    | (.inr n, s2) => (s2.answer f.src o.lane.val o.key o.stamp .accepted).recordCheck n

/-- OPEN (R7, R8, R10, R11, R13). -/
def execOpen (f : Frame) (s : State) : Result :=
  if s.takesKind .cluster 0x01 f then
    match readOpen f.payload with
    | none => .next (s.answerMalformed f true)
    | some o => .next (s.alertFrom ((s.endHeld o.lane).openIdle f o))
  else .next s

/-- ERASE (R7, R8, R12, R13). -/
def execErase (f : Frame) (s : State) : Result :=
  if s.takesKind .cluster 0x04 f then
    match readErase f.payload with
    | none => .next (s.answerMalformed f true)
    | some o => .next (s.alertFrom ((s.endHeld o.lane).eraseIdle f o))
  else .next s

/-- Early start is due on a lane (R15): permitted, not yet reported, and `CUT_THROUGH` reached by both lengths. -/
def State.earlyDue (s : State) (l : LaneId) : Bool :=
  let x := s.lane l
  ((s.record? x.record).any (·.early)) && !x.early && decide (s.settings.cutThrough ≤ x.declared) &&
    decide (s.settings.cutThrough ≤ x.ingested)

/-- Early start is reported (R15, R55): every WAITING slot is tested. -/
def State.reportEarly (s : State) (l : LaneId) : State :=
  if s.earlyDue l then (s.setLane l { s.lane l with early := true }).eligibility (s.lane l).record else s

/-- A BODY that passed its checks is taken whole (R15): written, checked, counted into both ingested offsets. -/
def State.takeBody (s : State) (l : LaneId) (data : List Byte) : State :=
  let x := s.lane l
  let extents := ((s.record? x.record).map (·.extents)).getD []
  let s1 := { s with dram := writeBody s.dram extents x.ingested data }
  let s2 := s1.setLane l { x with ingested := x.ingested + data.length, crc := crcBytes x.crc data }
  let s3 := s2.updRecord x.record fun r => { r with ingested := x.ingested + data.length }
  s3.reportEarly l

/-- A BODY on a STREAMING lane (R14, R15). -/
def State.bodyStreaming (s : State) (b : BodyFrame) : State :=
  let x := s.lane b.lane
  if b.offset ≠ x.ingested then s.failObject b.lane .badSequence .skip
  else if x.declared < b.offset + b.data.length then s.failObject b.lane .badBody .skip
  else s.takeBody b.lane b.data

/-- BODY (R8, R14, R15, R16). -/
def execBody (f : Frame) (s : State) : Result :=
  if s.takesKind .cluster 0x02 f then
    match readBodyFrame f.payload with
    | none => .next (s.answerMalformed f false)
    | some b =>
      match (s.lane b.lane).state with
      | .idle => .next (s.count (.ingest .idleBody))
      | .skip => .next (s.count (.ingest .skippedBody))
      | .streaming => .next (s.alertFrom (s.bodyStreaming b))
  else .next s

/-- The object a lane holds is whole and its check agrees (R17). -/
def Lane.complete (x : Lane) : Bool := x.ingested == x.declared && crcFinal x.crc == x.check

/-- A SEAL on a STREAMING lane (R17): the record is sealed, ACCEPTED is placed, the record's own notice follows; or the
object fails with BAD_BODY. -/
def State.sealStreaming (s : State) (l : LaneId) : State :=
  let x := s.lane l
  if x.complete then
    ((((s.sealRecord x.record).answerLane l .accepted).recordCheck x.record)).setLaneState l .idle
  else s.failObject l .badBody .idle

/-- SEAL (R8, R16, R17). -/
def execSeal (f : Frame) (s : State) : Result :=
  if s.takesKind .cluster 0x03 f then
    match readLaneFrame f.payload with
    | none => .next (s.answerMalformed f false)
    | some l =>
      match (s.lane l).state with
      | .idle => .next (s.count (.ingest .idleSeal))
      | .skip => .next (s.setLaneState l .idle)
      | .streaming => .next (s.alertFrom (s.sealStreaming l))
  else .next s

/-- DROP (R8, R16, R18). -/
def execDrop (f : Frame) (s : State) : Result :=
  if s.takesKind .cluster 0x05 f then
    match readLaneFrame f.payload with
    | none => .next (s.answerMalformed f false)
    | some l =>
      match (s.lane l).state with
      | .idle => .next s
      | .skip => .next (s.setLaneState l .idle)
      | .streaming => .next (s.alertFrom (s.failObject l .dropped .idle))
  else .next s

end Sys2Proof.Machine
end

