-- ==== Sys2Proof/Machine/Dispatch.lean ====
section
/-! DEFINITION. The meaning of every command: one arm per row of spec/opcode_table.json, one direct call each. -/

namespace Sys2Proof.Machine

/-- The command's effect on everything but the queue of waiting commands. -/
def exec (i : Instr) (s : State) : Host.Outcome State Fault Refusal :=
  match i with
  | .powerOn => Sys2Proof.Machine.execPowerOn s
  | .linkDown p => Sys2Proof.Machine.execLinkDown p s
  | .linkUp p => Sys2Proof.Machine.execLinkUp p s
  | .passThrough p f => Sys2Proof.Machine.execPassThrough p f s
  | .frameDropForeign p f => Sys2Proof.Machine.execFrameDropForeign p f s
  | .openObject f => Sys2Proof.Machine.execOpen f s
  | .body f => Sys2Proof.Machine.execBody f s
  | .seal f => Sys2Proof.Machine.execSeal f s
  | .erase f => Sys2Proof.Machine.execErase f s
  | .drop f => Sys2Proof.Machine.execDrop f s
  | .clusterTransmit => Sys2Proof.Machine.execClusterTransmit s
  | .longhaulGrant => Sys2Proof.Machine.execLonghaulGrant s
  | .transmitComplete p => Sys2Proof.Machine.execTransmitComplete p s
  | .segmentPlace r => Sys2Proof.Machine.execSegmentPlace r s
  | .spanHoldExpiry r => Sys2Proof.Machine.execSpanHoldExpiry r s
  | .pacingInterval => Sys2Proof.Machine.execPacingInterval s
  | .resendTimeout r => Sys2Proof.Machine.execResendTimeout r s
  | .probeTimer r => Sys2Proof.Machine.execProbeTimer r s
  | .receiptDelayExpiry r => Sys2Proof.Machine.execReceiptDelayExpiry r s
  | .deliveryTimeout l => Sys2Proof.Machine.execDeliveryTimeout l s
  | .epochTick => Sys2Proof.Machine.execEpochTick s
  | .receipt f => Sys2Proof.Machine.execReceipt f s
  | .probe f => Sys2Proof.Machine.execProbe f s
  | .probeReply f => Sys2Proof.Machine.execProbeReply f s
  | .dataSpan f => Sys2Proof.Machine.execDataSpan f s
  | .markerSpan f => Sys2Proof.Machine.execMarkerSpan f s
  | .storeAnswer f => Sys2Proof.Machine.execStoreAnswer f s
  | .deliveryFramePlace l => Sys2Proof.Machine.execDeliveryFramePlace l s
  | .controlParcel f => Sys2Proof.Machine.execControlParcel f s
  | .badCommand => Sys2Proof.Machine.execBadCommand s
  | .select => Sys2Proof.Machine.execSelect s
  | .stage => Sys2Proof.Machine.execStage s
  | .fetch => Sys2Proof.Machine.execFetch s
  | .turn => Sys2Proof.Machine.execTurn s
  | .routeOpen => Sys2Proof.Machine.execRouteOpen s
  | .routeClose => Sys2Proof.Machine.execRouteClose s
  | .pause => Sys2Proof.Machine.execPause s
  | .resume => Sys2Proof.Machine.execResume s
  | .clearImpaired => Sys2Proof.Machine.execClearImpaired s
  | .status => Sys2Proof.Machine.execStatus s
  | .counters => Sys2Proof.Machine.execCounters s
  | .events => Sys2Proof.Machine.execEvents s
  | .restart => Sys2Proof.Machine.execRestart s

end Sys2Proof.Machine
end

