-- ==== Sys2Proof/Safety.lean ====
section
/-! DEFINITION. What holds of the part in every state of a run: the invariants the claims speak of, each from the rule that
states it. -/

namespace Sys2Proof.Machine

/-! ## Queues and tables -/

/-- No FIFO or queue holds more than its places (R3, R4, R177). -/
def State.queuesBounded (s : State) : Prop :=
  s.passOut.length ≤ Config.passPlaces ∧ s.passIn.length ≤ Config.passPlaces ∧ s.outQ.length ≤ Config.outPlaces ∧
    s.parcels.length ≤ Config.parcelPlaces

/-- A table in canonical form that lists no entry equal to `d`, what an unlisted number reads as. -/
def Table.canonical {α : Type} [DecidableEq α] (t : Table α) (d : α) : Bool := Table.rising t && t.all fun e => e.2 != d

/-- Every sparse table of the state is in its canonical form. -/
def State.tablesCanonical (s : State) : Prop :=
  Memory.wf s.dram = true ∧ Table.rising s.records = true ∧ Table.rising s.assemblies = true ∧
    Table.canonical s.keyIndex [] = true ∧ Table.canonical s.pmap MapEntry.reset = true ∧
    Table.canonical s.counters 0 = true ∧ Table.rising s.bankA = true ∧ Table.rising s.bankB = true ∧
    ∀ r, Table.rising (s.route r).inb.held = true

/-- Every span held stands in the slot of its sequence, and its frame reads back with that sequence (R79, R161, R164). -/
def Inbound.heldSound (i : Inbound) : Prop :=
  ∀ e ∈ i.held, e.1 = e.2.seq.toNat % 1024 ∧ e.2.read.map (·.seq) = some e.2.seq

/-- The list `gaps` is the missing set (R161): the sequences from x up to the highest held one, in step order, whose slots are empty,
or hold another sequence (log entry 40). -/
def Inbound.missingAre (i : Inbound) (gaps : List Word) : Prop :=
  ∃ n, n ≤ 2 ^ 32 - 1 ∧ (∀ e ∈ i.held, ∃ k, k < n ∧ e.2.seq = seqAdvance k i.expected) ∧
    (0 < n → ∃ e ∈ i.held, e.2.seq = seqAdvance (n - 1) i.expected) ∧
    gaps = ((List.range n).map fun k => seqAdvance k i.expected).filter fun q =>
      !(Table.find i.held (q.toNat % 1024)).any fun h => h.seq == q

/-! ## Extents and descriptors -/

/-- The extents that records and assemblies hold, record by record, then assembly by assembly. -/
def State.heldExtents (s : State) : List Nat :=
  s.records.flatMap (fun e => e.2.extents) ++ s.assemblies.flatMap (fun e => e.2.extents)

/-- Every extent is free or held by exactly one record or one assembly (R71). -/
def State.extentsConserved (s : State) : Prop := (s.pool.toList ++ s.heldExtents).Perm (List.range Config.extents)

/-- The descriptors the windows hold and the free ones are 65,536 in all (R80). -/
def State.descriptorsConserved (s : State) : Prop :=
  s.descFree + (allRoutes.map fun r => (s.route r).tx.window.length).sum = Config.descriptors

/-! ## The send window (R104) -/

/-- The window's sequences are the serial run from the successor of receipted-through to the sequence before next sequence,
its bytes in flight are the sum of its wire lengths, and it holds at most 32,768 spans. -/
def Transmit.windowSound (t : Transmit) : Prop :=
  t.window.map (·.seq) = seqRun t.window.length (seqSucc t.through) ∧
    t.nextSeq = seqAdvance t.window.length (seqSucc t.through) ∧ t.inFlight = (t.window.map (·.wire)).sum ∧
    t.window.length ≤ Config.windowSpans

/-- The resend list lists window spans, in sequence order, each at most once (R111). -/
def Transmit.resendSound (t : Transmit) : Prop := t.resend.Sublist (t.window.map (·.seq))

/-- A route that is CLOSED or OPENING has transmitted nothing (R102, R107). -/
def Route.windowSound (x : Route) : Prop :=
  x.tx.windowSound ∧ (x.ctl.state = .closed ∨ x.ctl.state = .opening → x.tx.window = [])

/-! ## Pacing (R125, R138) -/

/-- The limits of a configuration that passed its checks (R141); the power-on configuration has remote region 0. -/
def RouteCfg.limitsHold (c : RouteCfg) : Prop :=
  1 ≤ c.floor.toNat ∧ c.floor.toNat ≤ c.startRate.toNat ∧ c.startRate.toNat ≤ c.ceil.toNat ∧ c.ceil.toNat ≤ 100000 ∧
    1 ≤ c.burst.toNat ∧ 1000 ≤ c.srttInit.toNat ∧ c.srttInit.toNat ≤ 2000000

/-- RATE lies from FLOOR to CEIL, SRTT from 1,000 to 2,000,000, and the credit from −9,215 to its cap (R125, R128, R138). -/
def Route.paceInRange (x : Route) : Prop :=
  x.cfg.floor.toNat ≤ x.pace.rate ∧ x.pace.rate ≤ x.cfg.ceil.toNat ∧ 1000 ≤ x.pace.srtt ∧ x.pace.srtt ≤ 2000000 ∧
    -9215 ≤ x.pace.credit ∧ x.pace.credit ≤ x.cap

/-- Every span of the route, FILLING, READY or transmitted, is at most 9,216 bytes on the wire (R96, R128). -/
def Route.wiresBounded (x : Route) : Prop :=
  x.bld.fillSpan.wire ≤ 9216 ∧ (∀ sp, x.bld.ready = some sp → sp.wire ≤ 9216) ∧ ∀ d ∈ x.tx.window, d.wire ≤ 9216

/-- A route's pacing is sound: a CLOSED one holds the closed values and runs no resend timer (R123, R125), any other keeps its
limits, what may be charged is bounded, and a configured region comes with limits that hold. -/
def Route.paceSound (x : Route) : Prop :=
  x.wiresBounded ∧ (x.cfg.region ≠ 0 → x.cfg.limitsHold) ∧ (x.ctl.state = .closed → x.pace = Pacing.reset ∧ x.tx.timer = none) ∧
    (x.ctl.state ≠ .closed → x.cfg.region ≠ 0 ∧ x.paceInRange)

/-! ## Records -/

/-- No record has two slots on one route, and no policy of either bank two destinations on one (check 5 of R35, R47). -/
def State.slotsDistinct (s : State) : Prop :=
  (∀ n x, s.record? n = some x → (x.slots.map (·.route)).Nodup) ∧
    ∀ bk i p, Table.find (s.bank bk) i = some p → (p.dests.map (·.route)).Nodup

/-- The packed offset of an ERASE record's slots is 0 (R56: its one segment carries no data). -/
def State.erasesUnpacked (s : State) : Prop :=
  ∀ n x, s.record? n = some x → x.kind = .erase → ∀ sl ∈ x.slots, sl.packed = 0

/-! ## What an event leaves behind -/

/-- The cluster output queue after a frame is offered to it (R4): at its tail while a place is free, else dropped. -/
def queuedOut (q : List OutFrame) (dst : Addr) (payload : List Byte) : List OutFrame :=
  if q.length < 512 then q ++ [{ dst := dst, payload := payload }] else q

/-- The cluster output queue at the end of an event that leads from `s` to `t` and left `q` in it (R189): one alert parcel at
the tail where an enabled class went from clear to latched and `MGMT_STATION` is not 0. -/
def alertedOut (s t : State) (q : List OutFrame) : List OutFrame :=
  if t.latches &&& ~~~s.latches &&& t.mask = 0 ∨ t.settings.mgmtStation = 0 then q
  else queuedOut q t.settings.mgmtStation (alertPayload (t.latches &&& t.mask) t.now)

/-- No counter stands above 2^48 − 1 (R191). -/
def State.countersBounded (s : State) : Prop := ∀ c, s.counter c ≤ 2 ^ 48 - 1

/-- From `s` to `t` counter `c`, which stood in its range, counted `n` events, holding at 2^48 − 1 (R191). -/
def State.counted (s t : State) (n : Nat) (c : Counter) : Prop :=
  s.counter c ≤ 2 ^ 48 - 1 → t.counter c = min (s.counter c + n) (2 ^ 48 - 1)

/-- The counters a COUNTERS command of group code `g` returns, in the order of their result (12.3): chapter by chapter, in a chapter by
its counter table, else by first mention (chapter 11: log entry 5). None for a code that names no group. -/
def countersOf (g : Nat) : Option (List Counter) :=
  if g = 0 then
    some <| List.map .ingest
      [.malformedEvent, .idleBody, .skippedBody, .idleSeal, .laneAbort, .placeNoWindow, .placeBeyondMap, .placeInvalid,
        .placeHeld, .policyAbsent, .recordStale, .recordCrowded, .recordTableFull, .recordWithdrawn, .recordFailed,
        .slotSuperseded, .slotCancelled, .slotAbandoned, .slotSettled, .slotFaulted, .abortQueued, .noticeLanded,
        .noticeVoided, .extentRefusedOut]
  else if g = 1 then
    some <| List.map .inbound
      [.extentRefusedIn, .receiptCorrupt, .receiptMisrouted, .probeCorrupt, .probeMisrouted, .spanCorrupt, .spanMisrouted,
        .deliveriesStarted, .deliveryRetries, .deliveredStored, .deliveredOlder, .deliveryFailed, .answerMalformed,
        .answerIgnored]
  else if g = 2 then
    some <| List.map .ports
      [.unknownKind, .eventForeign, .parcelForeign, .spanForeign, .passDropOut, .passDropIn, .clusterOutDrop,
        .clusterLinkDown, .longhaulLinkDown]
  else if g = 3 then
    some <| List.map .management
      [.parcelsDropped, .parcelsExecuted, .parcelsRefused, .parcelsPartial, .alertsSent]
  else if h : 16 ≤ g ∧ g < 24 then
    some <| List.map (.route ⟨g - 16, by omega⟩)
      [.spansClosedRoom, .spansClosedHold, .spansClosedMarker, .markersBuilt, .headRotations, .spansSent, .markersSent,
        .spansResent, .receiptsTaken, .receiptEarly, .badReceipt, .rttSamples, .gapRequests, .resendTimeouts,
        .epochsSettled, .epochsFaulted, .samplesClamped, .lossEvents, .lossIgnored, .rateDecreases, .rateIncreases,
        .probesSent, .repliesSent, .probeIgnored, .replyIgnored, .impairedEntries, .rebases, .epochDeferred,
        .duplicateSpans, .outOfWindow, .spansHeld, .spansApplied, .inboundStarved, .orphan, .objectsComplete, .objectsBad,
        .assemblyReplaced, .abortsMatched, .abortsUnmatched, .markersApplied, .markersSettled, .markersFaulted,
        .markersMerged, .receiptsSent]
  else none

/-- From `s` to `t` exactly the counters of `cs` counted, one event each. -/
def State.countedOnly (s t : State) (cs : List Counter) : Prop :=
  (∀ c ∈ cs, s.counted t 1 c) ∧ ∀ c, c ∉ cs → t.counter c = s.counter c

/-- Record `n` is the lowest-numbered free slot (R45). -/
def State.lowestFreeRecord (s : State) (n : Nat) : Prop :=
  n < 8192 ∧ s.record? n = none ∧ ∀ m, m < n → s.record? m ≠ none

/-- The new stamp is above that of the last record of the key's list, if the key has a list (R50 step 2). -/
def State.newerThanList (s : State) (key : Digest) (stamp : Stamp) : Prop :=
  ∀ m x, (s.keyList key).getLast? = some m → s.record? m = some x → x.stamp < stamp

/-! ## Spans that close (R94, R96, R97) -/

/-- The builder `b` of route `r` once its FILLING span closes and is handed over (R96, R97). The hold start is absent from then on
(R94; where the span waits CLOSED behind READY, log entry 41). -/
def State.spanClosed (s : State) (r : RouteId) (b : Builder) : Builder :=
  let sp : Span := { b.fillSpan with srcRegion := s.settings.localRegion, dstRegion := (s.route r).cfg.region }
  if b.ready = none then { b with ready := some sp, fill := .empty, fillSpan := Span.empty, holdStart := none }
  else { b with fill := .closed, fillSpan := sp, holdStart := none }

/-- The builder `b` has an OPEN span, and its hold has passed (R94). -/
def State.holdOver (s : State) (b : Builder) : Bool :=
  b.fill == .filling && b.holdStart.any fun t0 => decide (t0 + s.settings.spanHold ≤ s.now)

/-! ## Spans rebuilt (R112) -/

/-- The bytes `b` are the segment of entry `e` (12.2), its record standing: a PUT_PART's with its data at their body positions in the
record's extents (R90, R15), an ERASE's or an ABORT's (R91). -/
def State.rebuilds (s : State) (e : SegEntry) (b : List Byte) : Prop :=
  ∃ x, s.record? e.record = some x ∧
    let header := fun (kind flags objLen offset len : Nat) (check : Word) =>
      toBE 1 kind ++ toBE 1 flags ++ toBE 2 0 ++ toBE 4 x.bucket.toNat ++ toBE 8 x.key.toNat ++ toBE 8 x.stamp.toNat ++
        toBE 4 objLen ++ toBE 4 offset ++ toBE 2 len ++ toBE 2 0 ++ toBE 4 check.toNat
    let last := e.offset + e.len = x.length
    match e.kind with
    | .putPart =>
      ∃ d : List Byte, d.length = e.len ∧
        (∀ (i : Nat) (h : i < d.length), ∃ m, x.extents[(e.offset + i) / 65536]? = some m ∧
          Mem.read s.dram (m * 65536 + (e.offset + i) % 65536) = some d[i]) ∧
        b = header 1 ((if e.offset = 0 then 1 else 0) + if last then 2 else 0) x.length e.offset e.len (if last then x.check else 0) ++ d
    | .erase => b = header 2 3 0 0 0 0
    | .abort => b = header 3 0 x.length 0 0 0

/-! ## Object events -/

/-- The object event frames that are malformed (R8). -/
def malformedEvent : Instr → Prop
  | .openObject f =>
    ¬ lengthAgrees f.payload 32 ∨ 64 ≤ field f.payload 1 1 ∨ field64 f.payload 16 = 0 ∨ 67108864 < field f.payload 24 4
  | .erase f => ¬ lengthAgrees f.payload 24 ∨ 64 ≤ field f.payload 1 1 ∨ field64 f.payload 16 = 0
  | .body f =>
    f.payload.length < 8 ∨ ¬ lengthAgrees f.payload (8 + field f.payload 2 2) ∨ 64 ≤ field f.payload 1 1 ∨
      field f.payload 2 2 = 0 ∨ 8192 < field f.payload 2 2
  | .seal f | .drop f => ¬ lengthAgrees f.payload 4 ∨ 64 ≤ field f.payload 1 1
  | .powerOn | .linkDown _ | .linkUp _ | .passThrough _ _ | .frameDropForeign _ _ | .clusterTransmit | .longhaulGrant
  | .transmitComplete _ | .segmentPlace _ | .spanHoldExpiry _ | .pacingInterval | .resendTimeout _ | .probeTimer _
  | .receiptDelayExpiry _ | .deliveryTimeout _ | .epochTick | .receipt _ | .probe _ | .probeReply _ | .dataSpan _
  | .markerSpan _ | .storeAnswer _ | .deliveryFramePlace _ | .controlParcel _ | .badCommand | .select | .stage | .fetch | .turn
  | .routeOpen | .routeClose | .pause | .resume | .clearImpaired | .status | .counters | .events | .restart => False

/-- Why an OPEN taken on an IDLE lane is refused at step 2 or later (R10, R41, R50, R74), its bucket classified to the policy of
index `i`. -/
def State.refusesOpen (s : State) (i : BitVec 8) (o : OpenFrame) : Verdict → Prop
  | .unplaced => Table.find (s.bank s.active) i.toNat = none
  | .stale =>
    (Table.find (s.bank s.active) i.toNat).isSome ∧ ∃ m x, (s.keyList o.key).getLast? = some m ∧ s.record? m = some x ∧ o.stamp ≤ x.stamp
  | .crowded =>
    (Table.find (s.bank s.active) i.toNat).isSome ∧ s.newerThanList o.key o.stamp ∧ 4 ≤ (s.keyList o.key).length
  | .tableFull =>
    (Table.find (s.bank s.active) i.toNat).isSome ∧ s.newerThanList o.key o.stamp ∧ (s.keyList o.key).length < 4 ∧
      ∀ m, m < 8192 → s.record? m ≠ none
  | .full =>
    (Table.find (s.bank s.active) i.toNat).isSome ∧ s.newerThanList o.key o.stamp ∧ (s.keyList o.key).length < 4 ∧
      (∃ n, s.lowestFreeRecord n ∧ n ∉ s.keyList o.key) ∧ o.length ≠ 0 ∧
      s.pool.count < s.settings.inboundReserve + (o.length + 65535) / 65536
  | .accepted | .localOnly | .held | .badBody | .badSequence | .dropped | .malformed => False

/-- The required slots SETTLED, and those not terminal (R66). -/
def settledAndOpen (slots : List Slot) : Nat × Nat :=
  (slots.countP fun sl => sl.required && sl.state == .settled, slots.countP fun sl => sl.required && !sl.state.terminal)

/-- The route control item of a slot whose record fails: one ABORT where a segment of it was packed (R57). -/
def Record.owesAbort (x : Record) (r : RouteId) : Bool :=
  (x.slotOn r).any fun sl => (sl.state == .queued && sl.packed != 0) || sl.state == .sent || sl.state == .receipted

/-- From `s` to `t` record `n`, which was `x`, failed (R57). Each slot not terminal is CANCELLED, with an ABORT item where a segment of
it was packed; a QUEUED one's item leaves its class queue, a SENT or RECEIPTED one's entry the settlement queue (R118). The record
stays, FAILED, while a span, an item or one of those ABORTs holds it (R58, R64), else it is free at once (R65); its outcome, no
longer consulted, is fixed as R66 says (its reason ABANDONED as log entry 6 says). An OPEN span whose hold has passed closes where
the cancel of an unpacked slot takes the route's last packable work: log entry 20. -/
def State.recordFailed (s t : State) (n : Nat) (x : Record) : Prop :=
  let has := fun (r : RouteId) (p : Slot → Bool) => (x.slotOn r).any p
  let aborts := x.slots.countP fun sl => x.owesAbort sl.route
  let freed := x.refs = 0 ∧ x.items = 0 ∧ aborts = 0
  let k := settledAndOpen x.slots
  let o : Option RecOutcome :=
    if x.outcome.isSome ∨ k.2 = 0 then x.outcome
    else if x.quorum ≤ k.1 then some .landed
    else some (.voided (if k.1 + k.2 < x.quorum then .abandoned else .cancelled))
  (∀ m, m ≠ n → t.record? m = s.record? m) ∧
  (¬ freed → t.record? n = some
    { x with
      state := .failed, notice := .noneOwed, outcome := o, items := x.items + aborts
      slots := x.slots.map fun sl => if sl.state.terminal then sl else { sl with state := .cancelled, void := some .cancelled } }) ∧
  (freed → t.record? n = none) ∧
  (∀ k, t.keyList k = if freed ∧ k = x.key then (s.keyList k).filter (· != n) else s.keyList k) ∧
  t.pool.toList = s.pool.toList ++ (if freed then x.extents else []) ∧
  s.counted t 1 (.ingest .recordFailed) ∧ s.counted t aborts (.ingest .abortQueued) ∧
  s.counted t (x.slots.countP fun sl => !sl.state.terminal) (.ingest .slotCancelled) ∧
  ∀ r,
    let y := s.route r
    let left : Builder :=
      { y.bld with
        ctrlQ := y.bld.ctrlQ ++ (if x.owesAbort r then [{ kind := .abort, record := n }] else [])
        classQ := if has r (fun sl => sl.state == .queued) then (y.bld.leaveClass x.cls n).classQ else y.bld.classQ }
    let closes := has r (fun sl => sl.state == .queued && sl.packed == 0) && s.hasWork r && !t.hasWork r && s.holdOver left
    let gone := has r fun sl => sl.state == .sent || sl.state == .receipted
    t.route r =
      { y with
        bld := if closes then s.spanClosed r left else left
        tx := { y.tx with settleQ := if gone then y.tx.settleQ.filter (·.record != n) else y.tx.settleQ } } ∧
    s.counted t (if closes then 1 else 0) (.route r .spansClosedHold)

/-- From `s` to `t` the records `ns` failed one after the other, in their order (R19, R57), and the record table, the key index, the
pool, the routes and the counts of R57 changed no further. -/
def State.recordsFailed (t : State) : State → List Nat → Prop
  | s, [] =>
    t.records = s.records ∧ t.keyIndex = s.keyIndex ∧ t.pool = s.pool ∧ t.routes = s.routes ∧
      (∀ c ∈ [Counter.ingest .recordFailed, .ingest .abortQueued, .ingest .slotCancelled], t.counter c = s.counter c) ∧
      ∀ r, t.counter (.route r .spansClosedHold) = s.counter (.route r .spansClosedHold)
  | s, n :: ns =>
    ∃ u : State,
      u = { s with records := u.records, keyIndex := u.keyIndex, pool := u.pool, routes := u.routes, counters := u.counters } ∧
        (s.record? n = none → u = s) ∧ (∀ x, s.record? n = some x → s.recordFailed u n x) ∧ t.recordsFailed u ns

/-- From `s` to `t` the object of STREAMING lane `l` failed with verdict `v` and the lane went to `st` (R14, R17, R18, R57): the
answer is queued, and the record has failed. -/
def State.objectFailed (s t : State) (l : LaneId) (v : Verdict) (st : LaneState) : Prop :=
  t = { s with
        outQ := queuedOut s.outQ (s.lane l).station (answerPayload l.val (s.lane l).key (s.lane l).stamp v)
        lanes := t.lanes, records := t.records, keyIndex := t.keyIndex, pool := t.pool, routes := t.routes
        counters := t.counters } ∧
  t.lane l = { s.lane l with state := st } ∧ (∀ k, k ≠ l → t.lane k = s.lane k) ∧
  ∀ x, s.record? (s.lane l).record = some x → (x.slots.map (·.route)).Nodup → s.recordFailed t (s.lane l).record x

/-- From `s` to `t` the delivery of lane `l` ended (R77, R169, R171, R173): its assembly is free and its extents are at the tail of
the free list, its route's marker or open fault took the outcome by the assembly's standing, and with the cluster link up each
lane now IDLE, lowest number first, took the head of the delivery queue and is SENDING it from offset 0 (its first frame
to follow by its own row: log entry 16). That lane `l`, where it stays IDLE, keeps its attempt count, assembly number and send offset
is the model's choice: log entry 47. -/
def State.deliveryEnded (s t : State) (l : DeliveryLaneId) (failed : Bool) : Prop :=
  t = { s with
        pool := t.pool, assemblies := t.assemblies, routes := t.routes, dlanes := t.dlanes, deliveryQ := t.deliveryQ
        latches := if failed then s.latches ||| 0x0100 else s.latches, outQ := alertedOut s t s.outQ, counters := t.counters } ∧
  (let idle := allDLanes.filter fun k => k == l || (s.dlane k).state == .idle
   let n := if s.clusterUp then min idle.length s.deliveryQ.length else 0
   t.deliveryQ = s.deliveryQ.drop n ∧ s.counted t n (.inbound .deliveriesStarted) ∧
   (∀ (i : Nat) (h : i < idle.length) (g : i < s.deliveryQ.length), i < n → t.dlane idle[i] =
     { state := .sending, asm := s.deliveryQ[i], attempts := 0, sendOffset := 0, phase := .opening, waiting := false
       expiry := none }) ∧
   (∀ k, k ∉ idle.take n → t.dlane k =
     if k = l then { s.dlane l with state := .idle, waiting := false, expiry := none } else s.dlane k) ∧
   ∀ a, t.asm? a =
     if a = (s.dlane l).asm then none
     else (s.asm? a).map fun z => if a ∈ s.deliveryQ.take n then { z with state := .delivering } else z) ∧
  ∀ a, s.asm? (s.dlane l).asm = some a →
    t.pool.toList = s.pool.toList ++ a.extents ∧ (∀ q, q ≠ a.route → t.route q = s.route q) ∧
    t.route a.route =
      let y := s.route a.route
      match a.standing, y.inb.marker with
      | .ahead, some m =>
        if m.count ≤ 1 then
          { y with
            inb := { y.inb with settledEpoch := m.epoch, settledFault := m.faulted || failed, marker := none }
            tx := { y.tx with receiptDue := true } }
        else { y with inb := { y.inb with marker := some { m with count := m.count - 1, faulted := m.faulted || failed } } }
      | .ahead, none => y
      | .behind, _ => if failed then { y with inb := { y.inb with openFault := true } } else y
      | .detached, _ => y

/-- The status parcel that answers parcel `p` stands in the queue of `t` behind `q`, `p` has left the parcel queue, and the
counts of an executed parcel are made on those of `c` (R177, R178). That the unnamed bits of its flag byte are zero is log entry
42. -/
def State.answered (c t : State) (q : List OutFrame) (p : Parcel) (rest : List Parcel) (v : ParcelVerdict) (discard : Bool)
    (results : List Byte) : Prop :=
  t.outQ = queuedOut q p.src (statusPayload p.command p.tag v discard results) ∧ t.parcels = rest ∧
    t.counter (.management .parcelsExecuted) = min (c.counter (.management .parcelsExecuted) + 1) (2 ^ 48 - 1) ∧
    t.counter (.management .parcelsRefused) =
      (match v with
      | .refused _ => min (c.counter (.management .parcelsRefused) + 1) (2 ^ 48 - 1)
      | .done | .partDone _ => c.counter (.management .parcelsRefused)) ∧
    t.counter (.management .parcelsPartial) =
      (match v with
      | .partDone _ => min (c.counter (.management .parcelsPartial) + 1) (2 ^ 48 - 1)
      | .done | .refused _ => c.counter (.management .parcelsPartial))

/-! ## Receipts (R113, R114) -/

/-- The through sequence `q` of a receipt is behind the window (R114), where the window does not hold it. That receipted-through 0 has
only 0 behind it is log entry 12. -/
def Transmit.behind (t : Transmit) (q : Word) : Prop := q = 0 ∨ q = t.through ∨ t.through ≠ 0 ∧ precedes q t.through = true

/-- Receipt `f` at route `r` acts as receipts `g` and then `h` do with alerts masked: it is taken once, and its one alert stands at its
end (R113, R189). -/
def State.takenInTurn (s : State) (f g h : Frame) (r : RouteId) : Prop :=
  ∃ t u v, exec (.receipt g) { s with mask := 0 } = .next u ∧ exec (.receipt h) u = .next v ∧ exec (.receipt f) s = .next t ∧
    t = { v with mask := s.mask, outQ := alertedOut s t v.outQ, counters := t.counters } ∧
    s.counted t 1 (.route r .receiptsTaken) ∧
    ∀ c : Counter, c ≠ .route r .receiptsTaken → c ≠ .management .alertsSent → c ≠ .ports .clusterOutDrop →
      t.counter c = v.counter c

/-! ## Versions of a key (R53, R54) -/

/-- The key's list is `ns`: distinct records in use, each of that key with at most one slot on a route (R47, R49). -/
def State.versions (s : State) (key : Digest) (ns : List Nat) : Prop :=
  s.keyList key = ns ∧ ns.Nodup ∧ ∀ m ∈ ns, ∃ x, s.record? m = some x ∧ x.key = key ∧ (x.slots.map (·.route)).Nodup

/-- A slot on route `r` yields to the newer versions `newer` (case 1 of R54): one of them has a slot there that is neither
CANCELLED nor ABANDONED. -/
def State.yields (s : State) (newer : List Nat) (r : RouteId) : Bool :=
  newer.any fun m => ((s.record? m).bind fun x => x.slotState r).any fun st => st != .cancelled && st != .abandoned

/-- Record `m` and its slot on route `r`, where it has one. -/
def State.slotAt (s : State) (m : Nat) (r : RouteId) : Option (Record × Slot) :=
  (s.record? m).bind fun x => (x.slotOn r).map fun sl => (x, sl)

/-- Route `r`'s queues once a version takes the place of the older ones `older` (case 2 of R54): the item of each QUEUED slot is
gone, and one that was partly packed has an ABORT item at the tail of the control queue, oldest version first. -/
def State.takenPlace (s : State) (older : List Nat) (r : RouteId) : Builder :=
  let b := (s.route r).bld
  let gone := fun (m : Nat) (p : Record → Slot → Bool) =>
    older.contains m && (s.slotAt m r).any fun e => e.2.state == .queued && p e.1 e.2
  { b with
    ctrlQ := b.ctrlQ.filter (fun i => !(i.kind == .erase && gone i.record fun x sl => x.kind == .erase && sl.packed == 0)) ++
      (older.filter fun m => gone m fun _ sl => sl.packed != 0).map fun m => { kind := .abort, record := m }
    classQ := Vector.ofFn fun c => b.classQ[c].filter fun m =>
      !(gone m fun x sl => (x.kind == .put || sl.packed != 0) && x.cls.toNat == c.val) }

/-- A slot that a newer version supersedes, where `p` says it is (R48, R54). -/
def supersededIf (p : Bool) (sl : Slot) : Slot := if p then { sl with state := .superseded, void := some .superseded } else sl

/-- Record `x` once its slots of `p` are SUPERSEDED (R48, R54). Where a required one is among them and no outcome was fixed, the
check of R66 follows; its reason is ABANDONED where the quorum was out of reach before (log entry 6). -/
def Record.superseded (x : Record) (p : Slot → Bool) : Record :=
  let slots := x.slots.map fun sl => supersededIf (p sl) sl
  let before := settledAndOpen x.slots
  let after := settledAndOpen slots
  { x with
    slots := slots
    outcome :=
      if x.outcome.isSome || !x.slots.any (fun sl => sl.required && p sl) then x.outcome
      else if x.quorum ≤ before.1 then some .landed
      else if before.1 + before.2 < x.quorum then some (.voided .abandoned)
      else if after.1 + after.2 < x.quorum then some (.voided .superseded)
      else none }

/-- The slots of an older version that give way to a newer one on the routes `taken` (case 2 of R54). -/
def givesWay (taken : List RouteId) (sl : Slot) : Bool := taken.contains sl.route && (sl.state == .waiting || sl.state == .queued)

/-- The older version `x` once it gave way on the routes `taken` (R54, R66, R67, R68): its ERASE items gone, an ABORT item more for
each slot that was partly packed, its notice SENT where it was due and the link is up, and DRAINING with that and every slot
terminal. -/
def State.gaveWayTo (s : State) (x : Record) (taken : List RouteId) : Record :=
  let gives := givesWay taken
  let y := x.superseded gives
  let items := fun (p : Slot → Bool) => x.slots.countP fun sl => gives sl && sl.state == .queued && p sl
  let checked := x.slots.any gives && x.state == .live
  let notice := if checked && y.outcome.isSome && x.notice == .owed && s.clusterUp then .sent else x.notice
  { y with
    items := x.items + items (·.packed != 0) - (if x.kind = .erase then items (·.packed == 0) else 0)
    notice := notice
    state := if checked && notice == .sent && y.allTerminal then .draining else x.state }

/-- The closing notices of the older versions `older` as they give way on the routes `taken`, route by route, on each from the oldest
(R53, R54, R67). One that the full queue drops counts as well (log entry 36). -/
def State.gaveWayNotices (s : State) (older : List Nat) (taken : List RouteId) : List (Record × RecOutcome) :=
  (List.range taken.length).flatMap fun i => older.filterMap fun m => (s.record? m).bind fun x =>
    let y := s.gaveWayTo x (taken.take (i + 1))
    if (s.gaveWayTo x (taken.take i)).notice = .owed ∧ y.notice = .sent then y.outcome.map fun o => (x, o) else none

/-- The cluster output queue once those notices were offered to it. -/
def State.gaveWayOut (s : State) (older : List Nat) (taken : List RouteId) : List OutFrame :=
  (s.gaveWayNotices older taken).foldl (fun q e => queuedOut q e.1.station (noticePayload e.1 e.2)) s.outQ

/-- How many slots of the older versions `older` meet `p`. -/
def State.countSlots (s : State) (older : List Nat) (p : Slot → Bool) : Nat :=
  (older.map fun m => ((s.record? m).map fun x => x.slots.countP p).getD 0).sum

/-- From `s` to `t` the older versions `older` gave way on the routes `taken` (R54, R65): each is as `gaveWayTo` says, and free at
once where that was its last slot and nothing holds it; a record with no slot there is as it was. The ABORTs and the slots
SUPERSEDED are counted, those of the newer version, `own`, among them (R69). -/
def State.gaveWay (s t : State) (older : List Nat) (taken : List RouteId) (own : Nat) : Prop :=
  (s.erasesUnpacked → ∀ m ∈ older, ∀ x, s.record? m = some x →
    let z := s.gaveWayTo x taken
    t.record? m =
      if x.slots.any (givesWay taken) ∧ (z.state = .failed ∨ z.state = .draining) ∧ z.refs = 0 ∧ z.items = 0 ∧ z.allTerminal then none
      else some z) ∧
  s.counted t (s.countSlots older fun sl => givesWay taken sl && sl.state == .queued && sl.packed != 0) (.ingest .abortQueued) ∧
  s.counted t (own + s.countSlots older (givesWay taken)) (.ingest .slotSuperseded)

/-- From `s` to `t` the extents of those of the records `ns` that became free are at the tail of the free list (R65, R77). -/
def State.extentsReturned (s t : State) (ns : List Nat) : Prop :=
  ∃ xs, t.pool.toList = s.pool.toList ++ xs ∧
    xs.Perm ((ns.filter fun m => (t.record? m).isNone).flatMap fun m => ((s.record? m).map (·.extents)).getD [])

/-! ## A route's slots ended together (R63) -/

/-- The closing notices due when the slots on route `r` in a state of `p` are ABANDONED, in record number order (R63, R66, R67; the
order is log entry 9): of each LIVE record with such a slot whose notice is OWED and whose outcome is fixed, with the cluster
link up. -/
def State.abandonDue (s : State) (r : RouteId) (p : SlotState → Bool) : List (Record × RecOutcome) :=
  s.records.filterMap fun e =>
    let z := e.2
    let slots := z.slots.map fun sl =>
      if sl.route = r ∧ p sl.state then { sl with state := .abandoned, void := some .abandoned } else sl
    let k := settledAndOpen slots
    let o : Option RecOutcome :=
      if z.outcome.isSome then z.outcome
      else if z.slots.any fun sl => sl.route == r && sl.required then
        if z.quorum ≤ k.1 then some .landed else if k.1 + k.2 < z.quorum then some (.voided .abandoned) else none
      else none
    if s.clusterUp && z.state == .live && z.notice == .owed && z.slots.any fun sl => sl.route == r && p sl.state then
      o.map fun v => ({ z with slots := slots }, v)
    else none

/-- From `s` to `t` the assemblies of route `r` that were ASSEMBLING are discarded and its completed ones DETACHED (R158), and the
extents of those and of the records that became free are at the tail of the free list (R65, R77). -/
def State.inboundDropped (s t : State) (r : RouteId) : Prop :=
  (Table.rising s.assemblies = true → ∀ a, t.asm? a = (s.asm? a).bind fun z =>
    if z.route ≠ r then some z else if z.state = .assembling then none else some { z with standing := .detached }) ∧
  (Table.rising s.assemblies = true → Table.rising s.records = true → ∃ xs, t.pool.toList = s.pool.toList ++ xs ∧
    xs.Perm ((s.records.filter fun e => (t.record? e.1).isNone).flatMap (·.2.extents) ++
      (s.assemblies.filter fun e => e.2.route == r && e.2.state == .assembling).flatMap (·.2.extents)))

/-! ## Spans applied (R163, R167) -/

/-- A span lacks assemblies or extents (R163). -/
def State.lacks (s : State) (sp : SpanFrame) : Prop :=
  sp.kind = .data ∧
    (512 - s.assemblies.length < sp.segs.countP (fun g => decide (g.kind = .erase ∨ g.kind = .putPart ∧ g.first = true)) ∨
      s.pool.count < (sp.segs.map fun g => if g.kind = .putPart ∧ g.first = true then (g.objLen + 65535) / 65536 else 0).sum)

/-- Assembly `a` is `z`, and waits in the delivery queue or is on a delivery lane (R165, R166, R171). -/
def State.delivers (t : State) (a : Nat) (z : Assembly) : Prop :=
  t.asm? a = some z ∧
    (z.state = .queued ∧ a ∈ t.deliveryQ ∨ z.state = .delivering ∧ ∃ l, (t.dlane l).asm = a ∧ (t.dlane l).state = .sending)

/-! ## Staged entries: the checks of the rules that own the tables, with the reserved bits of 12.4 (log entry 30) -/

/-- The checks of a window (R21). -/
def windowPasses (ws : List Word) : Prop :=
  let w := Window.ofWords ws
  w.k.toNat ≤ 32 ∧ 2 ^ w.k.toNat ∣ w.base.toNat ∧ wordAt ws 0 &&& 0x3FFFFFC0 = 0 ∧ wordAt ws 2 &&& 0xFFFFFF00 = 0 ∧
    wordAt ws 3 &&& 0xC000FFE0 = 0

/-- The checks of a map word (R27). -/
def mapPasses (w : Word) : Prop := w &&& 0x3FFFFF00 = 0 ∧ (w.getLsbD 31 = true ∨ w = 0)

/-- The checks of a policy entry: those of R35 with the valid flag set, that of R36 with it clear. -/
def policyPasses (ws : List Word) : Prop :=
  let w := wordAt ws 0
  let n := (w.extractLsb' 16 2).toNat + 1
  let d := fun i => wordAt ws (i + 1)
  if w.getLsbD 31 then
    (∀ i j, i < j → j < n → (d i).extractLsb' 0 3 ≠ (d j).extractLsb' 0 3) ∧ (∃ i, i < n ∧ (d i).getLsbD 8 = true) ∧
      (w.extractLsb' 24 2).toNat + 1 ≤ (List.range n).countP (fun i => (d i).getLsbD 8) ∧
      (∀ i, n ≤ i → i < 4 → d i = 0) ∧ (∀ i, i < n → d i &&& 0xFFFFFCF8 = 0) ∧ w &&& 0x0CFCFFFF = 0 ∧ wordAt ws 5 = 0
  else ∀ v ∈ ws, v = 0

/-- The checks of the entry of route `i` (R141), the other routes' remote regions being `regions`. -/
def State.routePasses (s : State) (regions : RouteId → BitVec 6) (i : Nat) (ws : List Word) : Prop :=
  let c := RouteCfg.ofWords ws
  c.region ≠ 0 ∧ c.region ≠ s.settings.localRegion ∧ (∀ r, r.val ≠ i → regions r ≠ c.region) ∧ c.addr ≠ 0 ∧
    c.addr.getLsbD 40 = false ∧ 1 ≤ c.ceil.toNat ∧ c.ceil.toNat ≤ 100000 ∧ 1 ≤ c.floor.toNat ∧
    c.floor.toNat ≤ c.startRate.toNat ∧ c.startRate.toNat ≤ c.ceil.toNat ∧ 1 ≤ c.burst.toNat ∧ c.burst.toNat ≤ 256 ∧
    1000 ≤ c.srttInit.toNat ∧ c.srttInit.toNat ≤ 2000000 ∧ c.rtoPad.toNat ≤ 100000 ∧ 10 ≤ c.probePeriod.toNat ∧
    c.probePeriod.toNat ≤ 10000 ∧ wordAt ws 0 &&& 0xFFFFFFC0 = 0 ∧ wordAt ws 1 &&& 0xFFFF0000 = 0 ∧
    wordAt ws 3 &&& 0xFFFE0000 = 0 ∧ wordAt ws 4 &&& 0xFFFE0000 = 0 ∧ wordAt ws 5 &&& 0xFFFE0000 = 0 ∧
    wordAt ws 6 &&& 0x00600000 = 0 ∧ wordAt ws 7 &&& 0x80000000 = 0

/-- The checks of the LOCAL entry (R185): the ranges of 11.3, and the local region while a route is not CLOSED. -/
def State.localPasses (s : State) (ws : List Word) : Prop :=
  let c := Settings.ofWords ws
  c.clusterAddr ≠ 0 ∧ c.clusterAddr.getLsbD 40 = false ∧ c.longAddr ≠ 0 ∧ c.longAddr.getLsbD 40 = false ∧
    0x0600 ≤ c.frameType.toNat ∧ c.mgmtStation.getLsbD 40 = false ∧ 10 ≤ c.epochPeriod ∧ c.epochPeriod ≤ 60000 ∧
    65536 ≤ c.cutThrough ∧ c.cutThrough ≤ 67108864 ∧ c.spanHold ≤ 20000 ∧ 100 ≤ c.receiptDelay ∧ c.receiptDelay ≤ 10000 ∧
    c.inboundReserve ≤ 32768 ∧ c.poolLowMark ≤ 32768 ∧ 100 ≤ c.deliveryWait ∧ c.deliveryWait ≤ 60000 ∧
    (c.localRegion = s.settings.localRegion ∨ ∀ r, (s.route r).ctl.state = .closed)

/-- Entry `i` of a table passes the checks of the rule that owns the table (R181). -/
def State.entryPasses (s : State) (regions : RouteId → BitVec 6) (t : TableName) (i : Nat) (ws : List Word) : Prop :=
  match t with
  | .windows => windowPasses ws
  | .placementMap => mapPasses (wordAt ws 0)
  | .policyStandby => policyPasses ws
  | .policyActive => False
  | .routes => s.routePasses regions i ws
  | .localEntry => s.localPasses ws

/-- The values every block holds at power-on (R3, R4, R5, R6, R9, R20, R26, R33, R45, R73, R80, R81, R85, R102, R106, R108, R125,
R127, R140, R142, R158, R162, R171, R177, R179, R188, R191). Where no rule gives a field of a delivery lane a value, log entry
16 does. -/
def State.atPowerOn (t : State) : Prop :=
  t.now = 0 ∧ t.clusterUp = false ∧ t.longUp = false ∧ t.passOut = [] ∧ t.passIn = [] ∧ t.outQ = [] ∧ t.clusterTx = none ∧
    t.longTx = none ∧ t.clusterLast = .queue ∧ t.arbLast = 8 ∧ t.lastTick = 0 ∧ t.pacingNext = 64 ∧
    (∀ l, t.lane l =
      { state := .idle, record := 0, station := 0, key := 0, stamp := 0, declared := 0, check := 0, ingested := 0
        crc := 0xFFFFFFFF, early := false }) ∧
    (∀ i : Fin 8, t.windows[i] = { enable := false, mapped := false, base := 0, k := 0, policy := 0, mapBase := 0, grain := 0 }) ∧
    (∀ i, t.mapEntry i = { valid := false, hold := false, policy := 0 }) ∧ (∀ bk i, Table.find (t.bank bk) i = none) ∧
    t.active = .a ∧ t.generation = 1 ∧ t.armed = false ∧ (∀ n, t.record? n = none) ∧ (∀ k, t.keyList k = []) ∧
    t.pool.toList = List.range 65536 ∧ t.descFree = 65536 ∧
    (∀ r, t.route r =
      { cfg := { region := 0, addr := 0, ceil := 0, floor := 0, startRate := 0, burst := 0, srttInit := 0, probePeriod := 0
                 rtoPad := 0 }
        ctl := { state := .closed, paused := false, recovered := false, cleared := false, life := 0, prevLife := 0
                 remoteLife := none, echo := 0, probeTimer := none, epoch := 0, marker := none, settledEpoch := 0
                 settledFault := false }
        pace := { rate := 0, srtt := 0, credit := 0, regulator := .acquire, lastInc := none, lastDec := none, hold := none }
        tx := { nextSeq := 1, through := 0, window := [], inFlight := 0, resend := [], settleQ := [], timer := none
                timeouts := 0, receiptDue := false, probeDue := false, replyDue := false }
        bld := { ctrlQ := [], classQ := #v[[], [], [], []], fill := .empty, fillSpan := Span.empty, ready := none
                 marker := none, holdStart := none }
        inb := { expected := 1, lastApplied := 0, held := [], pendCount := 0, pendTime := none, settledEpoch := 0
                 settledFault := false, marker := none, openFault := false } }) ∧
    (∀ a, t.asm? a = none) ∧ t.deliveryQ = [] ∧
    (∀ l, t.dlane l =
      { state := .idle, asm := 0, attempts := 0, sendOffset := 0, phase := .opening, waiting := false, expiry := none }) ∧
    t.parcels = [] ∧ t.cursor = { table := .windows, index := 0, pos := 0, write := false, staged := [] } ∧ t.latches = 0 ∧
    t.mask = 0 ∧ t.faultRecord = none ∧ ∀ c, t.counter c = 0

end Sys2Proof.Machine
end

