-- ==== Sys2Proof/Certificates/Slice0/Obligations.lean ====
section
/-! DEFINITION. The statements for the provers, family by family in the table's order; the rules each rests on stand in its
docstring and in OBLIGATIONS.json. A statement of an effect gives the next state and, by an equation `t = { s with … }`, every
field that may differ from `s`; all others are unchanged. -/

section Statements

open Sys2Proof Sys2Proof.Machine

/-! ## Step -/

/-- A step takes the command at the front of the queue and runs it on the state with the queue's rest. -/
def Obligations.StepRunsFrontCommand : Prop :=
  ∀ (s : State) (c : Instr) (rest : List Instr), s.pending = c :: rest → step s = exec c { s with pending := rest }

/-- With nothing waiting, one microsecond passes, and a timer's command is queued exactly when its time has come (R127, R154, R94,
R120 with R130, R144, R170, R174). That a step on an empty queue is this tick is the model's choice: log entry 1. -/
def Obligations.IdleStepQueuesDueTimers : Prop :=
  ∀ s : State, s.pending = [] →
    ∃ t, step s = .next t ∧ t = { s with now := s.now + 1, pending := t.pending } ∧
      (.pacingInterval ∈ t.pending ↔ t.pacingNext ≤ t.now) ∧
      (.epochTick ∈ t.pending ↔ t.lastTick + t.settings.epochPeriod * 1000 ≤ t.now) ∧
      (∀ r, .resendTimeout r ∈ t.pending ↔ ∃ t0, (t.route r).tx.timer = some t0 ∧ t0 + (t.route r).rto ≤ t.now) ∧
      (∀ r, .spanHoldExpiry r ∈ t.pending ↔
        (t.route r).bld.fill = .filling ∧ t.nextItem r = none ∧
          ∃ t0, (t.route r).bld.holdStart = some t0 ∧ t0 + t.settings.spanHold ≤ t.now) ∧
      (∀ r, .probeTimer r ∈ t.pending ↔ ∃ t0, (t.route r).ctl.probeTimer = some t0 ∧ t0 ≤ t.now) ∧
      (∀ r, .receiptDelayExpiry r ∈ t.pending ↔
        (t.route r).tx.receiptDue = false ∧ ∃ t0, (t.route r).inb.pendTime = some t0 ∧ t0 + t.settings.receiptDelay ≤ t.now) ∧
      ∀ l, .deliveryTimeout l ∈ t.pending ↔
        (t.dlane l).state = .awaiting ∧ ∃ t0, (t.dlane l).expiry = some t0 ∧ t0 ≤ t.now

/-! ## Ports -/

/-- POWER_ON completes in every state and gives every block its power-on values, whole, the station addresses from the strap pins
(R184 and the blocks' rules), and the settings of 11.3; the state after reset holds them too. That the pins and the commands
waiting stay is the model's choice: log entry 28. -/
def Obligations.PowerOnValues : Prop :=
  State.reset.atPowerOn ∧
    ∀ s : State, ∃ t, exec .powerOn s = .next t ∧ t.atPowerOn ∧ t.clusterPins = s.clusterPins ∧
      t.longPins = s.longPins ∧ t.pending = s.pending ∧
      t.settings = { localRegion := 0, clusterAddr := s.clusterPins, longAddr := s.longPins, frameType := 0x9C40,
                     mgmtStation := 0, epochPeriod := 1000, cutThrough := 1048576, spanHold := 200, receiptDelay := 1000,
                     inboundReserve := 4096, poolLowMark := 2048, deliveryWait := 5000 }

/-- Cluster link down (R3, R4, R6, R19, R175): queues emptied and counted, every lane IDLE and the record of each STREAMING one
failed, in lane order (log entry 9), every delivery given up to the head of the queue, its assembly QUEUED and otherwise as it was.
A record no STREAMING lane holds, its key's list, a route's all but its queues, and with no lane STREAMING all of them and
the pool stay as they are. That the transmitter goes idle and that the alert lands in the emptied queue are the model's
reading: log entries 10 and 8; what a delivery lane that gives up keeps beside its attempt count of 0 is the model's choice: log
entry 47. -/
def Obligations.ClusterLinkDown : Prop :=
  ∀ s : State,
    let cut := allLanes.filter fun l => (s.lane l).state == .streaming
    let given := s.busyDLanes.map fun l => (s.dlane l).asm
    ∃ t, exec (.linkDown .cluster) s = .next t ∧
    t = { s with
          clusterUp := false, passIn := [], clusterTx := none, outQ := alertedOut s t [], latches := s.latches ||| 0x0800
          lanes := t.lanes, records := t.records, keyIndex := t.keyIndex, pool := t.pool, routes := t.routes
          assemblies := t.assemblies, deliveryQ := given ++ s.deliveryQ, dlanes := t.dlanes, counters := t.counters } ∧
    s.counted t s.passIn.length (.ports .passDropIn) ∧ s.counted t s.outQ.length (.ports .clusterOutDrop) ∧
    s.counted t 1 (.ports .clusterLinkDown) ∧ s.counted t cut.length (.ingest .laneAbort) ∧
    (∀ l, t.lane l = { s.lane l with state := .idle }) ∧
    (s.slotsDistinct → t.recordsFailed s (cut.map fun l => (s.lane l).record)) ∧
    (cut = [] → t.records = s.records ∧ t.keyIndex = s.keyIndex ∧ t.pool = s.pool ∧ t.routes = s.routes) ∧
    (∀ l ∈ cut, ∀ x, t.record? (s.lane l).record = some x → x.state = .failed) ∧
    (∀ m, (∀ l ∈ cut, (s.lane l).record ≠ m) → t.record? m = s.record? m) ∧
    (∀ k, (∀ l ∈ cut, ∀ x, s.record? (s.lane l).record = some x → x.key ≠ k) → t.keyList k = s.keyList k) ∧
    (∀ r, t.route r =
      { s.route r with
        bld := (t.route r).bld, tx := { (s.route r).tx with settleQ := (t.route r).tx.settleQ } }) ∧
    (∀ l, t.dlane l =
      if (s.dlane l).state = .idle then s.dlane l
      else { s.dlane l with state := .idle, attempts := 0, waiting := false, expiry := none }) ∧
    ∀ a, t.asm? a = (s.asm? a).map fun z => if a ∈ given then { z with state := .queued } else z

/-- Long-haul link down (R3, R6, R110, R149): the FIFO toward it empties, the frame on the wire is lost, routes in ACQUIRE or
TRACK enter IMPAIRED, an IMPAIRED route loses its recovered flag, a CLOSED or OPENING route is as it was. -/
def Obligations.LonghaulLinkDown : Prop :=
  ∀ s : State, ∃ t, exec (.linkDown .longhaul) s = .next t ∧
    t = { s with
          longUp := false, passOut := [], longTx := none, routes := t.routes, latches := t.latches
          outQ := alertedOut s t s.outQ, counters := t.counters } ∧
    (∀ r, t.route r =
      let x := s.route r
      match x.ctl.state with
      | .closed | .opening => x
      | .impaired => { x with ctl := { x.ctl with recovered := false } }
      | .acquire | .track =>
        { x with
          ctl := { x.ctl with state := .impaired, recovered := false, cleared := false
                              probeTimer := some (s.now + x.cfg.probePeriod.toNat * 1000) }
          tx := { x.tx with probeDue := true, timer := none } }) ∧
    t.latches = s.latches ||| 0x0800 |||
      (if ∃ r, (s.route r).ctl.state = .acquire ∨ (s.route r).ctl.state = .track then 0x0002 else 0) ∧
    s.counted t s.passOut.length (.ports .passDropOut) ∧ s.counted t 1 (.ports .longhaulLinkDown) ∧
    ∀ r, s.counted t (if (s.route r).ctl.state = .acquire ∨ (s.route r).ctl.state = .track then 1 else 0)
      (.route r .impairedEntries)

/-- Link up completes in every state (R6): every OWED notice with a fixed outcome is placed, in record number order, and becomes
SENT, and the record may drain and be free (R65, R67, R68); each lane that is IDLE takes the head of the delivery queue in
turn and is SENDING from offset 0 (R171), its first frame to follow by its own row (log entry 16). A notice carries kind, outcome,
reason, settled set, bucket, key, stamp and generation (R67); one that the full queue drops counts as well (log entry 36). On the
long-haul port only the link state changes. -/
def Obligations.LinkUpResumes : Prop :=
  (∀ s : State, exec (.linkUp .longhaul) s = .next { s with longUp := true }) ∧
  (∀ (x : Record) (o : RecOutcome),
    let p := noticePayload x o
    field p 0 1 = 0x11 ∧ field p 1 1 = (match x.kind with | .put => 1 | .erase => 2) ∧
      field p 2 1 = (match o with | .landed => 1 | .voided _ => 2) ∧
      (o = .landed → field p 3 1 = 0) ∧ (o = .voided .superseded → field p 3 1 = 1) ∧ (o = .voided .abandoned → field p 3 1 = 2) ∧
      (o = .voided .faulted → field p 3 1 = 3) ∧
      (∀ r : RouteId, fieldBit p 4 r.val = true ↔ ∃ sl ∈ x.slots, sl.route = r ∧ sl.state = .settled) ∧
      field p 5 3 = 0 ∧ field32 p 8 = x.bucket ∧ field64 p 12 = x.key ∧ field64 p 20 = x.stamp ∧ field32 p 28 = x.generation ∧
      p.drop 32 = List.replicate 14 0) ∧
  ∀ s : State, ∃ t, exec (.linkUp .cluster) s = .next t ∧
    t = { s with
          clusterUp := true, records := t.records, keyIndex := t.keyIndex, pool := t.pool, outQ := t.outQ
          deliveryQ := t.deliveryQ, dlanes := t.dlanes, assemblies := t.assemblies, counters := t.counters } ∧
    (Table.rising s.records = true →
      let owed := fun x : Record => decide (x.state = .live ∧ x.notice = .owed)
      let due := s.records.filterMap fun e => if owed e.2 then e.2.outcome.map fun o => (e.2, o) else none
      let freed := fun n => (s.record? n).isSome && (t.record? n).isNone
      t.outQ = due.foldl (fun q e => queuedOut q e.1.station (noticePayload e.1 e.2)) s.outQ ∧
      (∀ n, t.record? n = (s.record? n).bind fun x =>
        let y := if owed x ∧ x.outcome.isSome then { x with notice := .sent } else x
        let z := if y.state = .live ∧ y.notice = .sent ∧ y.slots.all (·.state.terminal) then { y with state := .draining } else y
        if (z.state = .failed ∨ z.state = .draining) ∧ z.refs = 0 ∧ z.items = 0 ∧ z.slots.all (·.state.terminal) then none
        else some z) ∧
      (∀ k, t.keyList k = (s.keyList k).filter fun n => !(freed n && (s.record? n).any (·.key == k))) ∧
      t.pool.toList = s.pool.toList ++ (s.records.filter fun e => freed e.1).flatMap (·.2.extents) ∧
      s.counted t (due.countP fun e => e.2 == .landed) (.ingest .noticeLanded) ∧
      s.counted t (due.countP fun e => e.2 != .landed) (.ingest .noticeVoided)) ∧
    let idle := allDLanes.filter fun l => (s.dlane l).state == .idle
    let k := min idle.length s.deliveryQ.length
    t.deliveryQ = s.deliveryQ.drop k ∧ s.counted t k (.inbound .deliveriesStarted) ∧
    (∀ (i : Nat) (h : i < idle.length) (g : i < s.deliveryQ.length), t.dlane idle[i] =
      { state := .sending, asm := s.deliveryQ[i], attempts := 0, sendOffset := 0, phase := .opening, waiting := false
        expiry := none }) ∧
    (∀ l, l ∉ idle.take k → t.dlane l = s.dlane l) ∧
    ∀ a, t.asm? a = (s.asm? a).map fun x => if a ∈ s.deliveryQ.take k then { x with state := .delivering } else x

/-- A frame a port does not take goes to the FIFO toward the other port, if its link is up and it holds fewer than 256
(R1, R3); a frame it takes whose kind does not belong to the port is dropped and counted (R2). -/
def Obligations.PassThroughAndForeignFrames : Prop :=
  (∀ (s : State) (f : Frame), ¬ (f.dst = s.settings.clusterAddr ∧ f.ftype = s.settings.frameType) →
    exec (.passThrough .cluster f) s =
      .next (if s.longUp ∧ s.passOut.length < 256 then { s with passOut := s.passOut ++ [f] }
        else s.count (.ports .passDropOut))) ∧
  (∀ (s : State) (f : Frame), ¬ (f.dst = s.settings.longAddr ∧ f.ftype = s.settings.frameType) →
    exec (.passThrough .longhaul f) s =
      .next (if s.clusterUp ∧ s.passIn.length < 256 then { s with passIn := s.passIn ++ [f] }
        else s.count (.ports .passDropIn))) ∧
  ∀ (s : State) (f : Frame), f.ftype = s.settings.frameType →
    (f.dst = s.settings.clusterAddr →
      (∀ k : Byte, f.kind = some k → k ∈ [0x20, 0x21, 0x22, 0x23, 0x24] →
        exec (.frameDropForeign .cluster f) s = .next (s.count (.ports .spanForeign))) ∧
      ((∀ k : Byte, f.kind = some k → k ∉ [0x01, 0x02, 0x03, 0x04, 0x05, 0x06, 0x30, 0x20, 0x21, 0x22, 0x23, 0x24]) →
        exec (.frameDropForeign .cluster f) s = .next (s.count (.ports .unknownKind)))) ∧
    (f.dst = s.settings.longAddr →
      (∀ k : Byte, f.kind = some k → k ∈ [0x01, 0x02, 0x03, 0x04, 0x05, 0x06] →
        exec (.frameDropForeign .longhaul f) s = .next (s.count (.ports .eventForeign))) ∧
      (f.kind = some 0x30 → exec (.frameDropForeign .longhaul f) s = .next (s.count (.ports .parcelForeign))) ∧
      ((∀ k : Byte, f.kind = some k → k ∉ [0x01, 0x02, 0x03, 0x04, 0x05, 0x06, 0x30, 0x20, 0x21, 0x22, 0x23, 0x24]) →
        exec (.frameDropForeign .longhaul f) s = .next (s.count (.ports .unknownKind))))

/-- The cluster transmitter, idle with its link up, starts the oldest frame of the source it did not serve last, or of the one
that holds a frame (R5), and is idle again at the end of a transmission, as the long-haul one is (R110). The part's own frames
carry the port's address and `FRAME_TYPE` (R1), those in force as the transmission starts: log entry 11. That otherwise nothing
happens is the model's choice: log entry 2. -/
def Obligations.ClusterTransmitterAlternates : Prop :=
  ∀ s : State,
    (s.clusterTx = none → s.clusterUp = true →
      (∀ f rest, s.passIn = f :: rest → (s.outQ = [] ∨ s.clusterLast = .queue) →
        exec .clusterTransmit s = .next { s with passIn := rest, clusterTx := some f, clusterLast := .fifo }) ∧
      (∀ o rest, s.outQ = o :: rest → (s.passIn = [] ∨ s.clusterLast = .fifo) →
        exec .clusterTransmit s =
          .next { s with
            outQ := rest
            clusterTx := some { dst := o.dst, src := s.settings.clusterAddr, ftype := s.settings.frameType, payload := o.payload }
            clusterLast := .queue })) ∧
    ((s.clusterTx ≠ none ∨ s.clusterUp = false ∨ s.passIn = [] ∧ s.outQ = []) → exec .clusterTransmit s = .next s) ∧
    exec (.transmitComplete .cluster) s = .next { s with clusterTx := none } ∧
    exec (.transmitComplete .longhaul) s = .next { s with longTx := none }

/-! ## Object event ingest -/

/-- A malformed object event frame is answered MALFORMED to its source and counted; nothing else changes (R7, R8). When key and stamp
could be read is the model's reading: log entry 18. -/
def Obligations.MalformedEventsAnswered : Prop :=
  ∀ (s : State) (c : Instr) (f : Frame) (k : Byte), c.frameKind = some (f, k) → s.takesKind .cluster k f → malformedEvent c →
    ∃ t, exec c s = .next t ∧ t = { s with outQ := t.outQ, counters := t.counters } ∧
      s.counted t 1 (.ingest .malformedEvent) ∧
      t.outQ = queuedOut s.outQ f.src
        (answerPayload (field f.payload 1 1)
          (if (k = 0x01 ∨ k = 0x04) ∧ 24 ≤ f.payload.length then field64 f.payload 8 else 0)
          (if (k = 0x01 ∨ k = 0x04) ∧ 24 ≤ f.payload.length then field64 f.payload 16 else 0) .malformed)

/-- Frames that reach a lane with no object to act on (R16): each is discarded, counted or returns the lane to IDLE, and neither
the Record Manager nor the Retention Memory Controller sees it. -/
def Obligations.FramesAtLanesWithoutObject : Prop :=
  (∀ (s : State) (f : Frame) (b : BodyFrame), s.takesKind .cluster 0x02 f → readBodyFrame f.payload = some b →
    ((s.lane b.lane).state = .skip → exec (.body f) s = .next (s.count (.ingest .skippedBody))) ∧
    ((s.lane b.lane).state = .idle → exec (.body f) s = .next (s.count (.ingest .idleBody)))) ∧
  (∀ (s : State) (f : Frame) (l : LaneId), s.takesKind .cluster 0x03 f → readLaneFrame f.payload = some l →
    ((s.lane l).state = .skip → exec (.seal f) s = .next (s.setLane l { s.lane l with state := .idle })) ∧
    ((s.lane l).state = .idle → exec (.seal f) s = .next (s.count (.ingest .idleSeal)))) ∧
  ∀ (s : State) (f : Frame) (l : LaneId), s.takesKind .cluster 0x05 f → readLaneFrame f.payload = some l →
    ((s.lane l).state = .skip → exec (.drop f) s = .next (s.setLane l { s.lane l with state := .idle })) ∧
    ((s.lane l).state = .idle → exec (.drop f) s = .next s)

/-- Classification (R22, R23, R24, R25, R28, R29, R30): the lowest-numbered window that hits decides; DIRECT gives its policy,
MAPPED the entry at map base + floor((b − base) / 2^g), with UNPLACED, HELD and the fault record as the entry says. -/
def Obligations.LowestHitWindowClassifies : Prop :=
  ∀ (s : State) (b : Word),
    let hits := fun i : Fin 8 =>
      (s.windows[i]).enable = true ∧ (s.windows[i]).base.toNat ≤ b.toNat ∧
        b.toNat < (s.windows[i]).base.toNat + 2 ^ (s.windows[i]).k.toNat
    ((∀ i, ¬ hits i) → s.classify b = (.inl .localOnly, s.count (.ingest .placeNoWindow))) ∧
    ∀ i, hits i → (∀ j, j < i → ¬ hits j) →
      let w := s.windows[i]
      let m := w.mapBase.toNat + (b.toNat - w.base.toNat) / 2 ^ w.grain.toNat
      let fault := fun (u : State) (k : FaultKind) =>
        if u.latches.getLsbD 12 then u
        else { u with latches := u.latches ||| 0x1000
                      faultRecord := some { kind := k, window := i.val, bucket := b, index := m } }
      (w.mapped = false → s.classify b = (.inr w.policy, s)) ∧
      (w.mapped = true →
        (16384 ≤ m → s.classify b = (.inl .unplaced, fault (s.count (.ingest .placeBeyondMap)) .beyondMap)) ∧
        (m < 16384 →
          ((s.mapEntry m).valid = false →
            s.classify b = (.inl .unplaced, fault (s.count (.ingest .placeInvalid)) .invalidEntry)) ∧
          ((s.mapEntry m).valid = true → (s.mapEntry m).hold = true →
            s.classify b = (.inl .held, s.count (.ingest .placeHeld))) ∧
          ((s.mapEntry m).valid = true → (s.mapEntry m).hold = false → s.classify b = (.inr (s.mapEntry m).policy, s))))

/-- An OPEN that passes its four steps (R10, R11, R42, R45, R47, R50, R74, R78): the lane streams, the lowest free slot holds the
INGESTING record at the end of its key's list, with the extents at the head of the free list; no answer yet. -/
def Obligations.OpenStartsObject : Prop :=
  ∀ (s : State) (f : Frame) (o : OpenFrame) (i : BitVec 8) (p : Policy) (n : Nat),
    s.takesKind .cluster 0x01 f → readOpen f.payload = some o → (s.lane o.lane).state = .idle →
    s.classify o.bucket = (.inr i, s) → Table.find (s.bank s.active) i.toNat = some p →
    s.newerThanList o.key o.stamp → (s.keyList o.key).length < 4 → s.lowestFreeRecord n →
    (o.length = 0 ∨ s.settings.inboundReserve + (o.length + 65535) / 65536 ≤ s.pool.count) →
    ∃ t, exec (.openObject f) s = .next t ∧
      t = { s with
            lanes := t.lanes, records := t.records, keyIndex := t.keyIndex, pool := t.pool
            latches := s.latches ||| (if 7680 < t.records.length then 0x0010 else 0) |||
              (if o.length ≠ 0 ∧ t.pool.count < s.settings.poolLowMark then 0x0008 else 0)
            outQ := alertedOut s t s.outQ, counters := t.counters } ∧
      t.lane o.lane = { state := .streaming, record := n, station := f.src, key := o.key, stamp := o.stamp,
                        declared := o.length, check := o.check, ingested := 0, crc := 0xFFFFFFFF, early := false } ∧
      (∀ l, l ≠ o.lane → t.lane l = s.lane l) ∧
      t.record? n = some
        { kind := .put, bucket := o.bucket, key := o.key, stamp := o.stamp, length := o.length, check := o.check
          station := f.src, extents := s.pool.toList.take ((o.length + 65535) / 65536), ingested := 0, state := .ingesting
          cls := p.cls, quorum := p.quorum, early := p.early, generation := s.generation
          slots := p.dests.map fun d =>
            if (s.route d.route).ctl.state = .closed then
              { route := d.route, required := d.required, state := .abandoned, packed := 0, closing := none
                void := some .abandoned }
            else { route := d.route, required := d.required, state := .waiting, packed := 0, closing := none, void := none }
          refs := 0, items := 0, notice := .noneOwed, outcome := none } ∧
      (∀ m, m ≠ n → t.record? m = s.record? m) ∧ t.keyList o.key = s.keyList o.key ++ [n] ∧
      (∀ k, k ≠ o.key → t.keyList k = s.keyList k) ∧
      t.pool.toList = s.pool.toList.drop ((o.length + 65535) / 65536)

/-- An OPEN refused on an IDLE lane (R10, R41, R50, R51, R74): answered at once with its verdict, the lane in SKIP, and no trace in
the record table, the key index or the pool. An ERASE is refused on the same grounds but FULL (R12), its lane left as it was;
that a policy without a required destination that carries erases comes first, as LOCAL_ONLY, is `EraseAccepted`'s. -/
def Obligations.OpenRefused : Prop :=
  (∀ (s : State) (f : Frame) (o : OpenFrame), s.takesKind .cluster 0x01 f → readOpen f.payload = some o →
    (s.lane o.lane).state = .idle →
    (∀ v u, s.classify o.bucket = (.inl v, u) →
      ∃ t, exec (.openObject f) s = .next t ∧
        t = { u with
              lanes := t.lanes, counters := t.counters
              outQ := alertedOut s t (queuedOut s.outQ f.src (answerPayload o.lane.val o.key o.stamp v)) } ∧
        t.lane o.lane = { s.lane o.lane with state := .skip } ∧ ∀ l, l ≠ o.lane → t.lane l = s.lane l) ∧
    ∀ i v, s.classify o.bucket = (.inr i, s) → s.refusesOpen i o v →
      ∃ t, exec (.openObject f) s = .next t ∧
        t = { s with
              lanes := t.lanes, records := t.records, keyIndex := t.keyIndex, latches := t.latches, counters := t.counters
              outQ := alertedOut s t (queuedOut s.outQ f.src (answerPayload o.lane.val o.key o.stamp v)) } ∧
        t.lane o.lane = { s.lane o.lane with state := .skip } ∧ (∀ l, l ≠ o.lane → t.lane l = s.lane l) ∧
        (∀ m, t.record? m = s.record? m) ∧ (∀ k, t.keyList k = s.keyList k) ∧
        (v ≠ .full → t.latches = s.latches) ∧
        (v = .unplaced → s.counted t 1 (.ingest .policyAbsent)) ∧ (v = .stale → s.counted t 1 (.ingest .recordStale)) ∧
        (v = .crowded → s.counted t 1 (.ingest .recordCrowded)) ∧
        (v = .tableFull → s.counted t 1 (.ingest .recordTableFull)) ∧
        (v = .full → s.counted t 1 (.ingest .recordWithdrawn) ∧ s.counted t 1 (.ingest .extentRefusedOut))) ∧
  ∀ (s : State) (f : Frame) (o : EraseFrame), s.takesKind .cluster 0x04 f → readErase f.payload = some o →
    (s.lane o.lane).state = .idle →
    (∀ v u, s.classify o.bucket = (.inl v, u) →
      ∃ t, exec (.erase f) s = .next t ∧
        t = { u with
              counters := t.counters
              outQ := alertedOut s t (queuedOut s.outQ f.src (answerPayload o.lane.val o.key o.stamp v)) }) ∧
    ∀ i v, s.classify o.bucket = (.inr i, s) →
      s.refusesOpen i { lane := o.lane, bucket := o.bucket, key := o.key, stamp := o.stamp, length := 0, check := 0 } v →
      (∀ p, Table.find (s.bank s.active) i.toNat = some p → ∃ d ∈ p.dests, d.required = true ∧ d.erases = true) →
      ∃ t, exec (.erase f) s = .next t ∧ t = { s with outQ := t.outQ, counters := t.counters } ∧
        t.outQ = queuedOut s.outQ f.src (answerPayload o.lane.val o.key o.stamp v) ∧
        (v = .unplaced → s.counted t 1 (.ingest .policyAbsent)) ∧ (v = .stale → s.counted t 1 (.ingest .recordStale)) ∧
        (v = .crowded → s.counted t 1 (.ingest .recordCrowded)) ∧
        (v = .tableFull → s.counted t 1 (.ingest .recordTableFull))

/-- A BODY that passes both checks is taken whole (R14, R15, R72): its bytes stand at their body positions, every other byte of
retention memory is as it was, and the offsets and the running CRC advance. Where early start is due (R15, R53, R54, R55), each
WAITING slot yields to a newer version of the key and is SUPERSEDED, or is QUEUED at offset 0 at the tail of its class queue in
the place of the older versions, whose notices go out route by route; the record's own waits for its SEAL (R67). The premise on
extents is the invariant R71. -/
def Obligations.BodyBytesTaken : Prop :=
  ∀ (s : State) (f : Frame) (b : BodyFrame) (y : Record), s.takesKind .cluster 0x02 f → readBodyFrame f.payload = some b →
    (s.lane b.lane).state = .streaming → b.offset = (s.lane b.lane).ingested →
    b.offset + b.data.length ≤ (s.lane b.lane).declared → s.record? (s.lane b.lane).record = some y → s.extentsConserved →
    let n := (s.lane b.lane).record
    let due := y.early = true ∧ (s.lane b.lane).early = false ∧ s.settings.cutThrough ≤ (s.lane b.lane).declared ∧
      s.settings.cutThrough ≤ b.offset + b.data.length
    ∃ t, exec (.body f) s = .next t ∧
      (∀ (i : Nat) (h : i < b.data.length) (a : Nat), bodyAddr y.extents (b.offset + i) = some a →
        Mem.read t.dram a = some b.data[i]) ∧
      (∀ a, (∀ i, i < b.data.length → bodyAddr y.extents (b.offset + i) ≠ some a) →
        Mem.read t.dram a = Mem.read s.dram a) ∧
      t.lane b.lane =
        { s.lane b.lane with
          ingested := b.offset + b.data.length, crc := crcBytes (s.lane b.lane).crc b.data
          early := (s.lane b.lane).early || decide due } ∧
      (∀ l, l ≠ b.lane → t.lane l = s.lane l) ∧
      (∃ z, t.record? n = some z ∧ z.ingested = b.offset + b.data.length ∧ z.extents = y.extents ∧
        (due → (y.slots.map (·.route)).Nodup → ∀ sl ∈ z.slots, sl.state ≠ .waiting)) ∧
      t = { s with
            dram := t.dram, lanes := t.lanes, records := t.records, keyIndex := t.keyIndex, pool := t.pool, routes := t.routes
            outQ := t.outQ, counters := t.counters } ∧
      (¬ due → t = { s with dram := t.dram, lanes := t.lanes, records := t.records } ∧
        t.record? n = some { y with ingested := b.offset + b.data.length } ∧ ∀ m, m ≠ n → t.record? m = s.record? m) ∧
      (due → y.kind = .put → ∀ older newer : List Nat, s.versions y.key (older ++ n :: newer) →
        let taken := fun r => y.slots.any (fun sl => sl.route == r && sl.state == .waiting) && !s.yields newer r
        let routes := (y.slots.map (·.route)).filter taken
        let yields := fun sl : Slot => sl.state == .waiting && !taken sl.route
        let x := y.superseded yields
        t.record? n = some
          { x with
            ingested := b.offset + b.data.length
            slots := x.slots.map fun sl => if taken sl.route then { sl with state := .queued, packed := 0 } else sl } ∧
        s.gaveWay t older routes (y.slots.countP yields) ∧ t.outQ = s.gaveWayOut older routes ∧ s.extentsReturned t older ∧
        (∀ m, m ≠ n → m ∉ older → t.record? m = s.record? m) ∧
        t.keyList y.key = ((older ++ n :: newer).filter fun m => (t.record? m).isSome) ∧
        (∀ k, k ≠ y.key → t.keyList k = s.keyList k) ∧
        ∀ r, t.route r =
          if taken r then { s.route r with bld := (s.takenPlace older r).joinClass y.cls n } else s.route r)

/-- A BODY out of order, one past the declared length, an incomplete SEAL and a DROP fail the lane's object with BAD_SEQUENCE,
BAD_BODY, BAD_BODY and DROPPED (R14, R17, R18, R57); an OPEN or ERASE on a busy lane first ends what it holds (R13). The record stays,
FAILED, while a span or an item holds it, its ABORTs among them, and is free at once where none does (R64, R65, R58); its items leave
the class queues, its entries the settlement queues (R118). That a cancel may close an OPEN span whose hold has passed (R94) is log
entry 20. -/
def Obligations.ObjectsFail : Prop :=
  (∀ (s : State) (f : Frame) (b : BodyFrame), s.takesKind .cluster 0x02 f → readBodyFrame f.payload = some b →
    (s.lane b.lane).state = .streaming →
    (b.offset ≠ (s.lane b.lane).ingested →
      ∃ t, exec (.body f) s = .next t ∧ s.objectFailed t b.lane .badSequence .skip) ∧
    (b.offset = (s.lane b.lane).ingested → (s.lane b.lane).declared < b.offset + b.data.length →
      ∃ t, exec (.body f) s = .next t ∧ s.objectFailed t b.lane .badBody .skip)) ∧
  (∀ (s : State) (f : Frame) (l : LaneId), s.takesKind .cluster 0x03 f → readLaneFrame f.payload = some l →
    (s.lane l).state = .streaming →
    ((s.lane l).ingested ≠ (s.lane l).declared ∨ (s.lane l).crc ^^^ 0xFFFFFFFF ≠ (s.lane l).check) →
      ∃ t, exec (.seal f) s = .next t ∧ s.objectFailed t l .badBody .idle) ∧
  (∀ (s : State) (f : Frame) (l : LaneId), s.takesKind .cluster 0x05 f → readLaneFrame f.payload = some l →
    (s.lane l).state = .streaming → ∃ t, exec (.drop f) s = .next t ∧ s.objectFailed t l .dropped .idle) ∧
  ∀ (s : State) (f : Frame) (c : Instr) (l : LaneId),
    (c = .openObject f ∧ s.takesKind .cluster 0x01 f ∧ (∃ o, readOpen f.payload = some o ∧ o.lane = l) ∨
      c = .erase f ∧ s.takesKind .cluster 0x04 f ∧ ∃ o, readErase f.payload = some o ∧ o.lane = l) →
    ((s.lane l).state = .streaming → ∃ u, s.objectFailed u l .badSequence .idle ∧ exec c s = exec c u) ∧
    ((s.lane l).state = .skip → exec c s = exec c (s.setLane l { s.lane l with state := .idle }))

/-- A SEAL of a whole object with the right check (R17, R55, R82): with no other version of its key standing the record is LIVE and
owes its notice, every slot is QUEUED at the tail of its class queue, ACCEPTED is answered, the lane is IDLE. Beside other
versions (R53, R54) a slot yields to a newer one and is SUPERSEDED, or takes the place of the older ones; the notices of those
go ahead of ACCEPTED, its own after it (R66, R67). Under early start the slots may stand in any state and the outcome may be fixed
already, LANDED or VOIDED (R55); that the reason is ABANDONED where slots ABANDONED at creation alone made it VOIDED is log entry 6. -/
def Obligations.SealAccepted : Prop :=
  ∀ (s : State) (f : Frame) (l : LaneId) (y : Record), s.takesKind .cluster 0x03 f → readLaneFrame f.payload = some l →
    (s.lane l).state = .streaming → (s.lane l).ingested = (s.lane l).declared →
    (s.lane l).crc ^^^ 0xFFFFFFFF = (s.lane l).check → s.record? (s.lane l).record = some y → y.kind = .put →
    let n := (s.lane l).record
    let accepted := fun q => queuedOut q (s.lane l).station (answerPayload l.val (s.lane l).key (s.lane l).stamp .accepted)
    (s.keyList y.key = [n] → y.outcome = none → (∀ sl ∈ y.slots, sl.state = .waiting) → (y.slots.map (·.route)).Nodup →
      0 < y.quorum → y.quorum ≤ y.slots.countP (·.required) →
      ∃ t, exec (.seal f) s = .next t ∧
        t = { s with
              lanes := t.lanes, records := t.records, routes := t.routes, outQ := accepted s.outQ, counters := t.counters } ∧
        t.lane l = { s.lane l with state := .idle } ∧ (∀ k, k ≠ l → t.lane k = s.lane k) ∧
        t.record? n = some
          { y with state := .live, notice := .owed
                   slots := y.slots.map fun sl => { sl with state := .queued, packed := 0 } } ∧
        (∀ m, m ≠ n → t.record? m = s.record? m) ∧
        ∀ r, t.route r =
          if r ∈ y.slots.map (·.route) then { s.route r with bld := (s.route r).bld.joinClass y.cls n } else s.route r) ∧
    ∀ older newer : List Nat, s.versions y.key (older ++ n :: newer) →
      let taken := fun r => y.slots.any (fun sl => sl.route == r && sl.state == .waiting) && !s.yields newer r
      let slots := y.slots.map fun sl =>
        if taken sl.route then { sl with state := .queued, packed := 0 } else supersededIf (sl.state == .waiting) sl
      let can := fun e : Nat × Nat => y.quorum ≤ e.1 + e.2
      let o : Option RecOutcome :=
        if y.outcome.isSome then y.outcome
        else if y.quorum ≤ (settledAndOpen y.slots).1 then some .landed
        else if ¬ can (settledAndOpen y.slots) then some (.voided .abandoned)
        else if ¬ can (settledAndOpen slots) then some (.voided .superseded)
        else none
      let x : Record := { y with state := .live, slots := slots, outcome := o, notice := .owed }
      let sends := o.isSome ∧ s.clusterUp = true
      let routes := (y.slots.map (·.route)).filter taken
      let q := s.gaveWayOut older routes
      ∃ t, exec (.seal f) s = .next t ∧
        t = { s with
              lanes := t.lanes, records := t.records, keyIndex := t.keyIndex, pool := t.pool, routes := t.routes, outQ := t.outQ
              counters := t.counters } ∧
        t.lane l = { s.lane l with state := .idle } ∧ (∀ k, k ≠ l → t.lane k = s.lane k) ∧
        s.gaveWay t older routes (y.slots.countP fun sl => sl.state == .waiting && !taken sl.route) ∧
        s.extentsReturned t (older ++ [n]) ∧
        t.outQ =
          (match o with
          | some v => if s.clusterUp then queuedOut (accepted q) y.station (noticePayload x v) else accepted q
          | none => accepted q) ∧
        t.record? n =
          (if sends ∧ slots.all (·.state.terminal) ∧ y.refs = 0 ∧ y.items = 0 then none
          else some
            { x with
              notice := if sends then .sent else .owed
              state := if sends ∧ slots.all (·.state.terminal) then .draining else .live }) ∧
        (∀ m, m ≠ n → m ∉ older → t.record? m = s.record? m) ∧
        t.keyList y.key = ((older ++ n :: newer).filter fun m => (t.record? m).isSome) ∧
        (∀ k, k ≠ y.key → t.keyList k = s.keyList k) ∧
        ∀ r, t.route r =
          if taken r then { s.route r with bld := (s.takenPlace older r).joinClass y.cls n } else s.route r

/-- An ERASE taken (R12, R43, R45, R50, R56): the record is LIVE at once, with one QUEUED slot and one ERASE item for each
destination that carries erases, and ACCEPTED is answered; with no required one left, LOCAL_ONLY. A slot whose route is CLOSED
is ABANDONED from the start (R47); where too few required ones are left the record is VOIDED at once and its own notice follows
ACCEPTED (R66, R67), its reason ABANDONED as log entry 6 says, and with no slot left the record is free (R65, R68). Older versions
of its key give way (R53, R54), an ABORT ahead of its own item; that RECORDS_LOW is judged before they do is log entry 35. -/
def Obligations.EraseAccepted : Prop :=
  ∀ (s : State) (f : Frame) (e : EraseFrame) (i : BitVec 8) (p : Policy), s.takesKind .cluster 0x04 f →
    readErase f.payload = some e → (s.lane e.lane).state = .idle → s.classify e.bucket = (.inr i, s) →
    Table.find (s.bank s.active) i.toNat = some p →
    let ds := p.dests.filter (·.erases)
    let runs := ds.filter fun d => (s.route d.route).ctl.state ≠ .closed
    let quorum := min p.quorum (ds.countP (·.required))
    let o : Option RecOutcome := if runs.countP (·.required) < quorum then some (.voided .abandoned) else none
    let x : Record :=
      { kind := .erase, bucket := e.bucket, key := e.key, stamp := e.stamp, length := 0, check := 0, station := f.src
        extents := [], ingested := 0, state := .live, cls := p.cls, quorum := quorum, early := p.early, generation := s.generation
        slots := ds.map fun d =>
          if (s.route d.route).ctl.state = .closed then
            { route := d.route, required := d.required, state := .abandoned, packed := 0, closing := none, void := some .abandoned }
          else { route := d.route, required := d.required, state := .queued, packed := 0, closing := none, void := none }
        refs := 0, items := runs.length, notice := .owed, outcome := o }
    let sends := o.isSome ∧ s.clusterUp = true
    let freed := sends ∧ runs = []
    let answered := fun q =>
      let r := queuedOut q f.src (answerPayload e.lane.val e.key e.stamp .accepted)
      if sends then queuedOut r f.src (noticePayload x (.voided .abandoned)) else r
    let stands : Option Record := if freed then none else some { x with notice := if sends then .sent else .owed }
    (ds.countP (·.required) = 0 →
      ∃ t, exec (.erase f) s = .next t ∧ t = { s with outQ := t.outQ, counters := t.counters } ∧
        t.outQ = queuedOut s.outQ f.src (answerPayload e.lane.val e.key e.stamp .localOnly)) ∧
    (∀ n, 0 < ds.countP (·.required) → 0 < p.quorum → (ds.map (·.route)).Nodup → s.keyList e.key = [] → s.lowestFreeRecord n →
      ∃ t, exec (.erase f) s = .next t ∧
        t = { s with
              records := t.records, keyIndex := t.keyIndex, routes := t.routes
              latches := s.latches ||| (if 7680 ≤ s.records.length then 0x0010 else 0)
              outQ := alertedOut s t (answered s.outQ), counters := t.counters } ∧
        t.record? n = stands ∧ (∀ m, m ≠ n → t.record? m = s.record? m) ∧
        t.keyList e.key = (if freed then [] else [n]) ∧ (∀ k, k ≠ e.key → t.keyList k = s.keyList k) ∧
        s.counted t (ds.length - runs.length) (.ingest .slotAbandoned) ∧
        s.counted t (if sends then 1 else 0) (.ingest .noticeVoided) ∧
        ∀ r, t.route r =
          if r ∈ runs.map (·.route) then
            { s.route r with bld := { (s.route r).bld with ctrlQ := (s.route r).bld.ctrlQ ++ [{ kind := .erase, record := n }] } }
          else s.route r) ∧
    ∀ n older, 0 < ds.countP (·.required) → 0 < p.quorum → (ds.map (·.route)).Nodup → s.versions e.key older →
      s.newerThanList e.key e.stamp → older.length < 4 → s.lowestFreeRecord n →
      let taken := runs.map (·.route)
      let q := s.gaveWayOut older taken
      ∃ t, exec (.erase f) s = .next t ∧
        t = { s with
              records := t.records, keyIndex := t.keyIndex, pool := t.pool, routes := t.routes
              latches := s.latches ||| (if 7680 ≤ s.records.length then 0x0010 else 0)
              outQ := alertedOut s t (answered q), counters := t.counters } ∧
        s.gaveWay t older taken 0 ∧ s.extentsReturned t older ∧ t.record? n = stands ∧
        (∀ m, m ≠ n → m ∉ older → t.record? m = s.record? m) ∧
        t.keyList e.key = (older.filter fun m => (t.record? m).isSome) ++ (if freed then [] else [n]) ∧
        (∀ k, k ≠ e.key → t.keyList k = s.keyList k) ∧
        ∀ r, t.route r =
          if r ∈ taken then
            let b := s.takenPlace older r
            { s.route r with bld := { b with ctrlQ := b.ctrlQ ++ [{ kind := .erase, record := n }] } }
          else s.route r

/-! ## Span Builder -/

/-- A PUT_PART is placed for the next record (R87 to R92, R59): its header and data join the span, the packed offset advances, with
the last byte the slot is SENT and leaves its queue, and a starved record rotates to its tail. Where that leaves no packable
work and the hold has passed, as it has at once with SPAN_HOLD 0, the span closes by hold (R94). -/
def Obligations.PutPartPlaced : Prop :=
  ∀ (s : State) (r : RouteId) (n : Nat) (x : Record) (sl : Slot) (d : List Byte),
    let b := (s.route r).bld
    let sp := if b.fill = .empty then Span.empty else b.fillSpan
    let room := 9162 - sp.area.length
    let len := min (min (room - 40) (x.ingested - sl.packed)) 9122
    b.fill ≠ .closed → b.marker = none → s.nextItem r = some (.inr n) → s.record? n = some x → x.slotOn r = some sl →
    sp.segs.length < 227 → (552 ≤ room ∨ 40 + (x.length - sl.packed) ≤ room) →
    readBody s.dram x.extents sl.packed len = some d →
    let last := sl.packed + len = x.length
    let placed : Builder :=
      { b with
        fill := .filling
        holdStart := if b.fill = .empty then some s.now else b.holdStart
        fillSpan :=
          { sp with
            area := sp.area ++ segmentBytes
              { kind := .putPart, first := decide (sl.packed = 0), last := decide last, bucket := x.bucket, key := x.key
                stamp := x.stamp, objLen := x.length, offset := sl.packed, check := if last then x.check else 0, data := d }
            segs := sp.segs ++ [{ record := n, kind := .putPart, offset := sl.packed, len := len }]
            recs := if n ∈ sp.recs then sp.recs else sp.recs ++ [n]
            closing := if last then sp.closing ++ [n] else sp.closing }
        classQ := (if last then b.leaveClass x.cls n
          else if sl.packed + len = x.ingested then (b.leaveClass x.cls n).joinClass x.cls n else b).classQ }
    ∃ t, exec (.segmentPlace r) s = .next t ∧
      t = { s with routes := t.routes, records := t.records, counters := t.counters } ∧
      (∀ q, q ≠ r → t.route q = s.route q) ∧ (∀ m, m ≠ n → t.record? m = s.record? m) ∧
      (let closes := s.holdOver placed && !t.hasWork r
       t.route r = { s.route r with bld := if closes then s.spanClosed r placed else placed } ∧
         s.counted t (if closes then 1 else 0) (.route r .spansClosedHold)) ∧
      t.record? n = some
        { x with
          refs := if n ∈ sp.recs then x.refs else x.refs + 1
          slots := x.slots.map fun e =>
            if e.route = r then { e with packed := sl.packed + len, state := if last then .sent else e.state } else e } ∧
      s.counted t (if ¬ last ∧ sl.packed + len = x.ingested then 1 else 0) (.route r .headRotations)

/-- The head of the control queue is placed as a segment of 40 bytes and leaves the queue (R87, R91, R92, R58, R59): an ABORT
changes no slot; an ERASE makes its QUEUED slot SENT, and one whose slot is not QUEUED places no segment (R59). That this one leaves
the queue, a state no run comes to, is the model's choice: log entry 23. Where no packable work is left and the hold has passed, the
span closes by hold (R94). -/
def Obligations.ControlSegmentPlaced : Prop :=
  ∀ (s : State) (r : RouteId) (i : CtrlItem) (rest : List CtrlItem) (x : Record),
    let b := (s.route r).bld
    let sp := if b.fill = .empty then Span.empty else b.fillSpan
    let placed := i.kind = .abort ∨ x.slotState r = some .queued
    let seg : Segment :=
      match i.kind with
      | .abort =>
        { kind := .abort, first := false, last := false, bucket := x.bucket, key := x.key, stamp := x.stamp, objLen := x.length
          offset := 0, check := 0, data := [] }
      | .erase =>
        { kind := .erase, first := true, last := true, bucket := x.bucket, key := x.key, stamp := x.stamp, objLen := 0
          offset := 0, check := 0, data := [] }
    b.fill ≠ .closed → b.marker = none → b.ctrlQ = i :: rest → s.record? i.record = some x → sp.segs.length < 227 →
    40 ≤ 9162 - sp.area.length →
    let left : Builder :=
      if placed then
        { b with
          ctrlQ := rest
          fill := .filling
          holdStart := if b.fill = .empty then some s.now else b.holdStart
          fillSpan :=
            { sp with
              area := sp.area ++ segmentBytes seg
              segs := sp.segs ++ [{ record := i.record, kind := i.kind.seg, offset := 0, len := 0 }]
              recs := if i.record ∈ sp.recs then sp.recs else sp.recs ++ [i.record]
              closing := if i.kind = .erase then sp.closing ++ [i.record] else sp.closing } }
      else { b with ctrlQ := rest }
    ∃ t, exec (.segmentPlace r) s = .next t ∧
      t = { s with routes := t.routes, records := t.records, keyIndex := t.keyIndex, pool := t.pool, counters := t.counters } ∧
      (∀ q, q ≠ r → t.route q = s.route q) ∧ (∀ m, m ≠ i.record → t.record? m = s.record? m) ∧
      (let closes := s.holdOver left && !t.hasWork r
       t.route r = { s.route r with bld := if closes then s.spanClosed r left else left } ∧
         s.counted t (if closes then 1 else 0) (.route r .spansClosedHold)) ∧
      (placed → 0 < x.refs ∨ i.record ∉ sp.recs →
        t.record? i.record = some
          { x with
            refs := if i.record ∈ sp.recs then x.refs else x.refs + 1
            items := x.items - 1
            slots := if i.kind = .erase then
                x.slots.map fun e => if e.route = r then { e with state := .sent, packed := 0 } else e
              else x.slots })

/-- The FILLING span closes by room when the chosen item cannot start (R89, R93), and by hold when its hold has passed with no
packable work (R94); closed, it takes its regions and moves into an empty READY (R96, R97). The item is not consumed. A span also
closes by hold where a placement or a cancel takes the last packable work: `PutPartPlaced`, `ControlSegmentPlaced` and
`ObjectsFail` say so. That an expiry not due changes nothing is the model's choice, log entry 2, and so is the hold start of a
span that closes by room and waits, log entry 41. -/
def Obligations.SpanClosesByRoomOrHold : Prop :=
  ∀ (s : State) (r : RouteId),
    let b := (s.route r).bld
    let room := 9162 - b.fillSpan.area.length
    let after := s.spanClosed r b
    (b.fill = .filling → b.marker = none →
      ((∃ n x sl, s.nextItem r = some (.inr n) ∧ s.record? n = some x ∧ x.slotOn r = some sl ∧
          (227 ≤ b.fillSpan.segs.length ∨ room < 552 ∧ room < 40 + (x.length - sl.packed))) ∨
        b.ctrlQ ≠ [] ∧ (227 ≤ b.fillSpan.segs.length ∨ room < 40)) →
      ∃ t, exec (.segmentPlace r) s = .next t ∧ t = { s with routes := t.routes, counters := t.counters } ∧
        (∀ q, q ≠ r → t.route q = s.route q) ∧ t.route r = { s.route r with bld := after } ∧
        s.countedOnly t [.route r .spansClosedRoom]) ∧
    (∀ t0, b.fill = .filling → b.holdStart = some t0 → t0 + s.settings.spanHold ≤ s.now → s.nextItem r = none →
      ∃ t, exec (.spanHoldExpiry r) s = .next t ∧ t = { s with routes := t.routes, counters := t.counters } ∧
        (∀ q, q ≠ r → t.route q = s.route q) ∧ t.route r = { s.route r with bld := after } ∧
        s.countedOnly t [.route r .spansClosedHold]) ∧
    ((b.fill ≠ .filling ∨ s.nextItem r ≠ none ∨ ∀ t0, b.holdStart = some t0 → s.now < t0 + s.settings.spanHold) →
      exec (.spanHoldExpiry r) s = .next s)

/-! ## Span Transmitter -/

/-- The arbiter grants the first eligible participant after the one last served, so one that stays eligible is served at least
once in every nine grants (R106). A route is eligible when it is not PAUSED and a control frame is due that its state lets it send,
or, in service with credit above 0, a resend is listed or the READY span has window room within the flight limit (R105, R107,
R128, R131). That nothing happens where no grant can be made is the model's choice: log entry 2. -/
def Obligations.ServedOnceInNineGrants : Prop :=
  (∀ (s : State) (p : Fin 9), s.granted = some p ↔
    s.longTx = none ∧ s.longUp = true ∧ s.eligible p = true ∧
      ∀ q : Fin 9, (q - s.arbLast - 1).val < (p - s.arbLast - 1).val → s.eligible q = false) ∧
  (∀ s : State, (s.eligible 8 = true ↔ s.passOut ≠ []) ∧
    ∀ r : RouteId,
      let x := s.route r
      s.eligible r.castSucc = true ↔ x.ctl.state ≠ .closed ∧ x.ctl.paused = false ∧
        (x.tx.receiptDue = true ∨ x.tx.replyDue = true ∨
          x.tx.probeDue = true ∧ (x.ctl.state = .opening ∨ x.ctl.state = .impaired) ∨
          (x.ctl.state = .acquire ∨ x.ctl.state = .track) ∧ 0 < x.pace.credit ∧
            ((∃ q d, x.tx.resend.head? = some q ∧ x.tx.window.find? (fun e => e.seq == q) = some d) ∨
              ∃ sp, x.bld.ready = some sp ∧ x.tx.inFlight + sp.wire ≤ max 9216 (x.pace.rate * x.pace.srtt / 4) ∧
                x.tx.window.length < 32768 ∧ 0 < s.descFree))) ∧
  (∀ s t : State, exec .longhaulGrant s = .next t →
    (∀ p, s.granted = some p → t.arbLast = p ∧ t.longTx.isSome) ∧ (s.granted = none → t = s)) ∧
  ∀ (u : Nat → State) (p : Fin 9),
    (∀ i, i < 9 → (u i).granted.isSome ∧ (u i).eligible p = true ∧
      ∃ t, exec .longhaulGrant (u i) = .next t ∧ (u (i + 1)).arbLast = t.arbLast) →
    ∃ i, i < 9 ∧ (u i).granted = some p

/-- A grant of the pass-through FIFO starts its oldest frame (R3, R106); a route's grant starts first a due receipt, then a due
reply, then a due probe of a route OPENING or IMPAIRED, composed from the state at that moment and not charged (R107, R108,
R144, R170). A receipt's gaps are the first eight of the missing set (R161), in step order; x counts as missing where its slot
holds another sequence: log entry 40. -/
def Obligations.GrantStartsControlFrame : Prop :=
  (∀ i : Inbound, i.expected ≠ 0 → i.heldSound → i.missingAre i.missing) ∧
  (∀ (s : State) (f : Frame) (rest : List Frame), s.granted = some 8 → s.passOut = f :: rest →
    exec .longhaulGrant s = .next { s with arbLast := 8, passOut := rest, longTx := some f }) ∧
  ∀ (s : State) (r : RouteId), s.granted = some r.castSucc →
    let x := s.route r
    let sends := fun (t : State) (y : Route) (c : RouteCounter) =>
      t = { s with arbLast := r.castSucc, longTx := t.longTx, routes := t.routes, counters := t.counters } ∧
        t.route r = y ∧ (∀ q, q ≠ r → t.route q = s.route q) ∧ s.countedOnly t [.route r c] ∧
        ∃ f, t.longTx = some f ∧ f.dst = x.cfg.addr ∧ f.src = s.settings.longAddr ∧ f.ftype = s.settings.frameType
    (x.tx.receiptDue = true →
      ∃ t f, exec .longhaulGrant s = .next t ∧
        sends t { x with tx := { x.tx with receiptDue := false }, inb := { x.inb with pendCount := 0, pendTime := none } }
          .receiptsSent ∧
        t.longTx = some f ∧ f.kind = some 0x22 ∧
        readReceipt f.payload = some
          { src := s.settings.localRegion.toNat, dst := x.cfg.region.toNat, through := x.inb.lastApplied
            epoch := x.inb.settledEpoch, faulted := x.inb.settledFault, gaps := x.inb.missing.take 8 }) ∧
    (x.tx.receiptDue = false → x.tx.replyDue = true →
      ∃ t f, exec .longhaulGrant s = .next t ∧ sends t { x with tx := { x.tx with replyDue := false } } .repliesSent ∧
        t.longTx = some f ∧ f.kind = some 0x24 ∧
        readProbe f.payload = some
          { openFlag := false, src := s.settings.localRegion.toNat, dst := x.cfg.region.toNat, life := x.ctl.life
            echo := x.ctl.echo }) ∧
    (x.tx.receiptDue = false → x.tx.replyDue = false → x.tx.probeDue = true →
      (x.ctl.state = .opening ∨ x.ctl.state = .impaired) →
      ∃ t f, exec .longhaulGrant s = .next t ∧ sends t { x with tx := { x.tx with probeDue := false } } .probesSent ∧
        t.longTx = some f ∧ f.kind = some 0x23 ∧
        readProbe f.payload = some
          { openFlag := decide (x.ctl.state = .opening), src := s.settings.localRegion.toNat, dst := x.cfg.region.toNat
            life := x.ctl.life, echo := 0 })

/-- The first transmission of the READY span, in the nine steps of R109, with R60, R97, R98, R118 and R120. -/
def Obligations.ReadySpanSent : Prop :=
  ∀ (s : State) (r : RouteId) (sp : Span), s.granted = some r.castSucc →
    let x := s.route r
    let q := x.tx.nextSeq
    let sent := fun n => ((s.record? n).bind fun y => y.slotState r) = some .sent
    x.tx.receiptDue = false → x.tx.replyDue = false → (x.ctl.state = .acquire ∨ x.ctl.state = .track) → x.tx.resend = [] →
    x.bld.ready = some sp →
    ∃ t, exec .longhaulGrant s = .next t ∧
      t = { s with
            arbLast := r.castSucc, descFree := s.descFree - 1, routes := t.routes, records := t.records, counters := t.counters
            longTx := some
              { dst := x.cfg.addr, src := s.settings.longAddr, ftype := s.settings.frameType
                payload := spanPayload sp.kind sp.srcRegion sp.dstRegion q sp.epoch sp.segs.length sp.area } } ∧
      (∀ p, p ≠ r → t.route p = s.route p) ∧
      t.route r =
        { x with
          pace := { x.pace with credit := x.pace.credit - (sp.wire : Int) }
          ctl := { x.ctl with marker := if sp.kind = .marker then x.ctl.marker.map fun m => { m with seq := some q } else x.ctl.marker }
          tx := { x.tx with
            nextSeq := seqSucc q
            inFlight := x.tx.inFlight + sp.wire
            window := x.tx.window ++
              [{ seq := q, kind := sp.kind, epoch := sp.epoch, wire := sp.wire, segs := sp.segs, recs := sp.recs
                 closing := sp.closing, firstSend := s.now, lastSend := s.now, resent := false, requested := none, onList := false }]
            settleQ := x.tx.settleQ ++ (sp.closing.filter fun n => decide (sent n)).map fun n => { seq := q, record := n }
            timer := if x.tx.window = [] then some s.now else x.tx.timer }
          bld :=
            if x.bld.fill = .closed then
              { x.bld with ready := some x.bld.fillSpan, fill := .empty, fillSpan := Span.empty }
            else
              match x.bld.marker with
              | some e => { x.bld with ready := some (markerSpan s.settings.localRegion x.cfg.region e), marker := none }
              | none => { x.bld with ready := none } } ∧
      (∀ n, t.record? n = (s.record? n).map fun y =>
        if n ∈ sp.closing ∧ y.slotState r = some .sent then y.updSlot r fun sl => { sl with closing := some q } else y) ∧
      s.counted t 1 (.route r (match sp.kind with | .data => .spansSent | .marker => .markersSent))

/-- A resend sends the head of the resend list again under its own sequence (R112, R107, R120): the frame is rebuilt from the
descriptor and the records, segment by segment as R90 and R91 place them (`State.rebuilds`), the window and the bytes in flight stay, and the credit falls by the wire length. -/
def Obligations.ResendRebuildsSpan : Prop :=
  ∀ (s : State) (r : RouteId) (d : Descriptor) (area : List Byte) (ps : List (List Byte)), s.granted = some r.castSucc →
    let x := s.route r
    x.tx.receiptDue = false → x.tx.replyDue = false → (x.ctl.state = .acquire ∨ x.ctl.state = .track) →
    x.tx.resendHead = some d → List.Forall₂ s.rebuilds d.segs ps → area = ps.flatten →
    ∃ t, exec .longhaulGrant s = .next t ∧
      t = { s with
            arbLast := r.castSucc, routes := t.routes, counters := t.counters
            longTx := some
              { dst := x.cfg.addr, src := s.settings.longAddr, ftype := s.settings.frameType
                payload := spanPayload d.kind s.settings.localRegion x.cfg.region d.seq d.epoch d.segs.length area } } ∧
      (∀ p, p ≠ r → t.route p = s.route p) ∧
      t.route r =
        { x with
          pace := { x.pace with credit := x.pace.credit - (d.wire : Int) }
          tx := { x.tx with
            window := x.tx.window.map fun e => if e.seq = d.seq then { e with lastSend := s.now, resent := true, onList := false } else e
            resend := x.tx.resend.tail
            timer := if x.tx.window.head?.map (·.seq) = some d.seq then some s.now else x.tx.timer } } ∧
      s.countedOnly t [.route r .spansResent]

/-! ## Timers, pacing and receipts -/

/-- A pacing interval expiry raises the credit of every route that is not CLOSED by RATE × 8, limited to RATE × 8 × BURST (R127).
That nothing happens where no multiple of 64 µs was reached is the model's choice: log entry 2. -/
def Obligations.PacingIntervalRefills : Prop :=
  ∀ s : State,
    (s.pacingNext ≤ s.now → ∃ t, exec .pacingInterval s = .next t ∧
      t = { s with routes := t.routes, pacingNext := (s.now / 64 + 1) * 64 } ∧
      ∀ r, t.route r =
        let x := s.route r
        if x.ctl.state = .closed then x
        else
          { x with pace := { x.pace with
              credit := min (x.pace.credit + (x.pace.rate * 8 : Nat)) ((x.pace.rate * 8 * x.cfg.burst.toNat : Nat) : Int) } }) ∧
    (s.now < s.pacingNext → exec .pacingInterval s = .next s)

/-- An expiry of the resend timer (R121, R132, R133, R136, R148): the oldest span stands at the head of the resend list, asked for now,
the count rises, a loss event lowers RATE, with a regulator in ACQUIRE and the route with it going to TRACK, or sets the hold;
the eighth expiry impairs the route (R149), any other restarts the timer. All else of the route stays. The premises on the window
and the resend list are the invariants R104 and R111. That nothing happens before the expiry is the model's choice: log entry 2. -/
def Obligations.ResendTimeoutBacksOff : Prop :=
  ∀ (s : State) (r : RouteId) (t0 : Nat) (d : Descriptor) (ds : List Descriptor),
    let x := s.route r
    let lost := x.pace.lastDec.all fun u => decide (u + x.pace.srtt ≤ s.now)
    let locks := lost ∧ x.pace.regulator = .acquire
    let eighth := x.tx.timeouts + 1 = 8
    let rate := match x.pace.regulator with
      | .acquire => max x.cfg.floor.toNat (x.pace.rate / 2)
      | .track => max x.cfg.floor.toNat (x.pace.rate - x.pace.rate / 4)
    (x.tx.timer = some t0 →
      t0 + min 4000000 (max 10000 (min 4000000 (2 * x.pace.srtt + x.cfg.rtoPad.toNat)) * 2 ^ x.tx.timeouts) ≤ s.now →
      (x.ctl.state = .acquire ∨ x.ctl.state = .track) → x.ctl.paused = false → x.tx.window = d :: ds → x.windowSound →
      x.tx.resendSound →
      ∃ t, exec (.resendTimeout r) s = .next t ∧
        t = { s with routes := t.routes, latches := t.latches, outQ := alertedOut s t s.outQ, counters := t.counters } ∧
        (∀ q, q ≠ r → t.route q = s.route q) ∧
        t.route r =
          { x with
            ctl :=
              if eighth then
                { x.ctl with state := .impaired, recovered := false, cleared := false
                             probeTimer := some (s.now + x.cfg.probePeriod.toNat * 1000) }
              else { x.ctl with state := if locks then .track else x.ctl.state }
            pace :=
              if lost then
                { x.pace with
                  rate := rate
                  credit := min x.pace.credit ((rate * 8 * x.cfg.burst.toNat : Nat) : Int)
                  lastDec := some s.now, hold := none, regulator := .track }
              else { x.pace with hold := some (seqPred x.tx.nextSeq) }
            tx := { x.tx with
              window := { d with onList := true, requested := some s.now } :: ds
              resend := if x.tx.resend.head? = some d.seq then x.tx.resend else d.seq :: x.tx.resend
              timeouts := x.tx.timeouts + 1
              timer := if eighth then none else some s.now
              probeDue := if eighth then true else x.tx.probeDue } } ∧
        t.latches = s.latches ||| (if locks then 0x0004 else 0) ||| (if eighth then 0x0002 else 0) ∧
        s.counted t 1 (.route r .resendTimeouts) ∧ s.counted t 1 (.route r .lossEvents) ∧
        s.counted t (if lost then 1 else 0) (.route r .rateDecreases) ∧
        s.counted t (if lost then 0 else 1) (.route r .lossIgnored) ∧
        s.counted t (if eighth then 1 else 0) (.route r .impairedEntries)) ∧
    ((∀ u, x.tx.timer = some u →
        s.now < u + min 4000000 (max 10000 (min 4000000 (2 * x.pace.srtt + x.cfg.rtoPad.toNat)) * 2 ^ x.tx.timeouts)) →
      exec (.resendTimeout r) s = .next s)

/-- Receipts that do not act (R113, R114): corrupt, misrouted, early at an OPENING route, and one whose through sequence is neither
in the window nor behind it; and a receipt behind it with no gap and no epoch that settles. Each is counted, no more. What
is behind receipted-through 0 is the model's reading: log entry 12. -/
def Obligations.ReceiptsThatDoNotAct : Prop :=
  ∀ (s : State) (f : Frame), s.takesKind .longhaul 0x22 f →
    (readReceipt f.payload = none → exec (.receipt f) s = .next (s.count (.inbound .receiptCorrupt))) ∧
    ∀ x, readReceipt f.payload = some x →
      ((s.routeOfRegion x.src = none ∨ x.dst ≠ s.settings.localRegion.toNat ∨
          ∃ r, s.routeOfRegion x.src = some r ∧ (s.route r).ctl.state = .closed) →
        exec (.receipt f) s = .next (s.count (.inbound .receiptMisrouted))) ∧
      ∀ r, s.routeOfRegion x.src = some r → x.dst = s.settings.localRegion.toNat →
        ((s.route r).ctl.state = .opening → exec (.receipt f) s = .next (s.count (.route r .receiptEarly))) ∧
        ((s.route r).ctl.state ≠ .closed → (s.route r).ctl.state ≠ .opening →
          (∀ d ∈ (s.route r).tx.window, d.seq ≠ x.through) →
          (¬ (s.route r).tx.behind x.through → ∃ t, exec (.receipt f) s = .next t ∧ t = { s with counters := t.counters } ∧
            s.countedOnly t [.route r .receiptsTaken, .route r .badReceipt]) ∧
          ((s.route r).tx.behind x.through → x.gaps = [] →
            (∀ m, (s.route r).ctl.marker = some m → m.seq = none ∨ m.epoch ≠ x.epoch) → ∃ t, exec (.receipt f) s = .next t ∧
            t = { s with counters := t.counters } ∧ s.countedOnly t [.route r .receiptsTaken]))

/-- The cumulative point of a receipt advances (R114, R115, R116, R129): every span up to it leaves the window, its SENT closing slots
are RECEIPTED, descriptors return, and the newest span that left and was never resent updates SRTT. Then the loss hold clears if
the advance reaches it, and RATE rises if the hold is clear and an SRTT has passed (R134, R135). A gap listed for a window span that
is neither listed nor asked for within an SRTT lists it for resend, a loss event where it was never resent (R111, R117, R132).
That a timer restarted in the past, or at the present moment, expires within the advance, which the clause on RATE sets apart, is
log entry 13; that the gaps of a receipt with T of 0 count is log entry 12. A receipt that advances and lists gaps or settles an
epoch acts as the advance alone and then its gaps and epoch (R113, R132): so an increase, then a decrease. That is said with
alerts masked; the one alert at its end is `alertedOut`'s. -/
def Obligations.CumulativePointAdvances : Prop :=
  (∀ (s : State) (f : Frame) (x : ReceiptFrame) (r : RouteId) (pre post : List Descriptor) (d : Descriptor),
    let y := s.route r
    s.takesKind .longhaul 0x22 f → readReceipt f.payload = some x → s.routeOfRegion x.src = some r →
    x.dst = s.settings.localRegion.toNat → y.ctl.state ≠ .closed → y.ctl.state ≠ .opening → y.windowSound →
    y.tx.window = pre ++ d :: post → d.seq = x.through → x.gaps = [] →
    (∀ m, y.ctl.marker = some m → m.seq = none ∨ m.epoch ≠ x.epoch) →
    ∃ t, exec (.receipt f) s = .next t ∧
      t = { s with
            routes := t.routes, records := t.records, keyIndex := t.keyIndex, pool := t.pool
            descFree := s.descFree + (pre.length + 1), latches := t.latches, outQ := alertedOut s t s.outQ
            counters := t.counters } ∧
      (∀ q, q ≠ r → t.route q = s.route q) ∧
      (t.route r).tx.through = x.through ∧ (t.route r).tx.window.map (·.seq) = post.map (·.seq) ∧
      (t.route r).tx.inFlight = (post.map (·.wire)).sum ∧ (t.route r).tx.nextSeq = y.tx.nextSeq ∧
      (t.route r).bld = y.bld ∧ (t.route r).inb = y.inb ∧
      (post = [] → (t.route r).tx.timer = none ∧ (t.route r).tx.timeouts = 0) ∧
      s.counted t 1 (.route r .receiptsTaken) ∧
      (∀ e ∈ pre ++ [d], ∀ n ∈ e.closing, ∀ z sl, s.record? n = some z → (z.slots.map (·.route)).Nodup → z.slotOn r = some sl →
        sl.state = .sent → sl.closing = some e.seq → ∃ w, t.record? n = some w ∧ w.slotState r = some .receipted) ∧
      ((∀ e ∈ pre ++ [d], e.resent = true) → (t.route r).pace.srtt = y.pace.srtt) ∧
      (∀ a e c, pre ++ [d] = a ++ e :: c → e.resent = false → (∀ g ∈ c, g.resent = true) →
        let m := max 1000 (min 2000000 (s.now - e.firstSend))
        (t.route r).pace.srtt = max 1000 (min 2000000
          (if y.pace.srtt ≤ m then y.pace.srtt + (m - y.pace.srtt) / 8 else y.pace.srtt - (y.pace.srtt - m) / 8))) ∧
      let srtt := (t.route r).pace.srtt
      let hold := y.pace.hold.filter fun h => !(x.through == h || precedes h x.through)
      let rises := hold = none ∧ ∀ u, y.pace.lastInc = some u → u + srtt ≤ s.now
      let rate := min y.cfg.ceil.toNat (y.pace.rate + max 1 (match y.pace.regulator with
        | .acquire => y.pace.rate / 4
        | .track => y.cfg.ceil.toNat / 64))
      let locks := y.pace.regulator = .acquire ∧ rate = y.cfg.ceil.toNat
      (∀ e es, post = e :: es →
        s.now < e.lastSend + min 4000000 (max 10000 (min 4000000 (2 * srtt + y.cfg.rtoPad.toNat)))) →
      (t.route r).tx.timeouts = 0 ∧
      (t.route r).tx.timer =
        (if y.ctl.paused = true ∨ y.ctl.state = .impaired then none else post.head?.map (·.lastSend)) ∧
      (y.ctl.state = .impaired → t.latches = s.latches ∧ (t.route r).ctl = y.ctl ∧ (t.route r).pace = { y.pace with srtt := srtt }) ∧
      (y.ctl.state ≠ .impaired → ¬ rises →
        t.latches = s.latches ∧ (t.route r).ctl = y.ctl ∧ (t.route r).pace = { y.pace with srtt := srtt, hold := hold }) ∧
      (y.ctl.state ≠ .impaired → rises → s.counted t 1 (.route r .rateIncreases) ∧
        t.latches = (if locks then s.latches ||| 0x0004 else s.latches) ∧
        (t.route r).ctl = { y.ctl with state := if locks then .track else y.ctl.state } ∧
        (t.route r).pace =
          { y.pace with srtt := srtt, hold := none, rate := rate, lastInc := some s.now
                        regulator := if locks then .track else y.pace.regulator })) ∧
  (∀ (s : State) (f g : Frame) (x : ReceiptFrame) (e : Word) (r : RouteId),
    let y := s.route r
    s.takesKind .longhaul 0x22 f → s.takesKind .longhaul 0x22 g → readReceipt f.payload = some x →
    readReceipt g.payload = some { x with epoch := e, gaps := [] } → s.routeOfRegion x.src = some r →
    x.dst = s.settings.localRegion.toNat → y.ctl.state ≠ .closed → y.ctl.state ≠ .opening → y.windowSound →
    (∃ d ∈ y.tx.window, d.seq = x.through) → (∀ m, y.ctl.marker = some m → m.epoch ≠ e) → s.takenInTurn f g f r) ∧
  ∀ (s : State) (f : Frame) (x : ReceiptFrame) (r : RouteId),
    let y := s.route r
    s.takesKind .longhaul 0x22 f → readReceipt f.payload = some x → s.routeOfRegion x.src = some r →
    x.dst = s.settings.localRegion.toNat → y.ctl.state ≠ .closed → y.ctl.state ≠ .opening → y.windowSound → 0 < y.pace.srtt →
    (∀ d ∈ y.tx.window, d.seq ≠ x.through) → y.tx.behind x.through →
    (∀ m, y.ctl.marker = some m → m.seq = none ∨ m.epoch ≠ x.epoch) →
    let asks := fun d : Descriptor =>
      d.seq ∈ x.gaps ∧ d.seq ∉ y.tx.resend ∧ ∀ u, d.requested = some u → u + y.pace.srtt < s.now
    let lost := y.tx.window.filter fun d => decide (asks d) && !d.resent
    let falls := ∀ u, y.pace.lastDec = some u → u + y.pace.srtt ≤ s.now
    let rate := match y.pace.regulator with
      | .acquire => max y.cfg.floor.toNat (y.pace.rate / 2)
      | .track => max y.cfg.floor.toNat (y.pace.rate - y.pace.rate / 4)
    let held := some (seqPred y.tx.nextSeq)
    ∃ t, exec (.receipt f) s = .next t ∧
      t = { s with routes := t.routes, latches := t.latches, outQ := alertedOut s t s.outQ, counters := t.counters } ∧
      (∀ q, q ≠ r → t.route q = s.route q) ∧
      t.route r =
        { y with
          ctl := (t.route r).ctl, pace := (t.route r).pace
          tx := { y.tx with
            window := y.tx.window.map fun d => if asks d then { d with onList := true, requested := some s.now } else d
            resend := (t.route r).tx.resend } } ∧
      (∀ q, q ∈ (t.route r).tx.resend ↔ q ∈ y.tx.resend ∨ ∃ d ∈ y.tx.window, d.seq = q ∧ asks d) ∧
      (∀ d, x.gaps = [d.seq] → d ∈ y.tx.window → asks d → ∃ a b, y.tx.resend = a ++ b ∧
        (t.route r).tx.resend = a ++ d.seq :: b ∧ (∀ q ∈ a, precedes d.seq q = false) ∧
          ∀ q, b.head? = some q → precedes d.seq q = true) ∧
      s.counted t 1 (.route r .receiptsTaken) ∧
      s.counted t (y.tx.window.countP fun d => decide (asks d)) (.route r .gapRequests) ∧
      s.counted t lost.length (.route r .lossEvents) ∧
      (lost = [] ∨ y.ctl.state = .impaired →
        t.latches = s.latches ∧ (t.route r).ctl = y.ctl ∧ (t.route r).pace = y.pace) ∧
      (lost ≠ [] → y.ctl.state ≠ .impaired → ¬ falls →
        t.latches = s.latches ∧ (t.route r).ctl = y.ctl ∧ (t.route r).pace = { y.pace with hold := held }) ∧
      (lost ≠ [] → y.ctl.state ≠ .impaired → falls → s.counted t 1 (.route r .rateDecreases) ∧
        t.latches = (if y.pace.regulator = .acquire then s.latches ||| 0x0004 else s.latches) ∧
        (t.route r).ctl = { y.ctl with state := if y.pace.regulator = .acquire then .track else y.ctl.state } ∧
        (t.route r).pace =
          { y.pace with
            rate := rate
            credit := min y.pace.credit ((rate * 8 * y.cfg.burst.toNat : Nat) : Int)
            lastDec := some s.now, regulator := .track, hold := if lost.length = 1 then none else held })

/-- A receipt that carries the epoch of a transmitted outstanding marker settles it (R119, R62, R156): every entry ahead of the
marker leaves the settlement queue, its SENT or RECEIPTED slot is SETTLED, or FAULTED where the receipt says so. A record's outcome
is fixed by the settlement that meets its quorum or the fault that makes it out of reach, a LIVE record's notice goes out with
the link up, and with its last slot terminal it is DRAINING (R66, R67, R68). Where the receipt's cumulative point covers the closing span as well, the
slot passes through RECEIPTED to SETTLED or FAULTED in that one receipt (R62); one that lists gaps too acts as its gaps alone and
then its epoch. That a receipt with T of 0 settles an epoch is log entry 12. -/
def Obligations.EpochSettlesSlots : Prop :=
  (∀ (s : State) (f : Frame) (x : ReceiptFrame) (r : RouteId) (m : Marker) (q : Word),
    let y := s.route r
    let es := y.tx.settleQ.takeWhile fun e => precedes e.seq q
    s.takesKind .longhaul 0x22 f → readReceipt f.payload = some x → s.routeOfRegion x.src = some r →
    x.dst = s.settings.localRegion.toNat → y.ctl.state ≠ .closed → y.ctl.state ≠ .opening →
    y.windowSound → (∃ d ∈ y.tx.window, d.seq = x.through) → x.gaps = [] →
    y.ctl.marker = some m → m.seq = some q → m.epoch = x.epoch →
    ∃ t, exec (.receipt f) s = .next t ∧
      (t.route r).tx.through = x.through ∧ (t.route r).tx.settleQ = y.tx.settleQ.drop es.length ∧
      (t.route r).ctl.marker = none ∧ (t.route r).ctl.settledEpoch = x.epoch ∧ (t.route r).ctl.settledFault = x.faulted ∧
      s.counted t 1 (.route r .epochsSettled) ∧
      ∀ e ∈ es, ∀ z, s.record? e.record = some z → (z.slots.map (·.route)).Nodup → ∀ w, t.record? e.record = some w →
        w.slotState r =
          if z.slotState r = some .sent ∨ z.slotState r = some .receipted then
            some (if x.faulted then .faulted else .settled)
          else z.slotState r) ∧
  (∀ (s : State) (f g h : Frame) (x : ReceiptFrame) (e : Word) (r : RouteId),
    let y := s.route r
    s.takesKind .longhaul 0x22 f → s.takesKind .longhaul 0x22 g → s.takesKind .longhaul 0x22 h →
    readReceipt f.payload = some x → readReceipt g.payload = some { x with epoch := e } →
    readReceipt h.payload = some { x with gaps := [] } → s.routeOfRegion x.src = some r →
    x.dst = s.settings.localRegion.toNat → y.ctl.state ≠ .closed → y.ctl.state ≠ .opening →
    (∀ d ∈ y.tx.window, d.seq ≠ x.through) → y.tx.behind x.through → (∀ m, y.ctl.marker = some m → m.epoch ≠ e) →
    s.takenInTurn f g h r) ∧
  ∀ (s : State) (f : Frame) (x : ReceiptFrame) (r : RouteId) (m : Marker) (q : Word),
    let y := s.route r
    let es := y.tx.settleQ.takeWhile fun e => precedes e.seq q
    s.takesKind .longhaul 0x22 f → readReceipt f.payload = some x → s.routeOfRegion x.src = some r →
    x.dst = s.settings.localRegion.toNat → y.ctl.state ≠ .closed → y.ctl.state ≠ .opening →
    (∀ d ∈ y.tx.window, d.seq ≠ x.through) → y.tx.behind x.through → x.gaps = [] →
    y.ctl.marker = some m → m.seq = some q → m.epoch = x.epoch →
    ∃ t, exec (.receipt f) s = .next t ∧
      t = { s with
            routes := t.routes, records := t.records, keyIndex := t.keyIndex, pool := t.pool, outQ := t.outQ
            latches := if x.faulted then s.latches ||| 0x0200 else s.latches, counters := t.counters } ∧
      (∀ p, p ≠ r → t.route p = s.route p) ∧
      t.route r =
        { y with
          tx := { y.tx with settleQ := y.tx.settleQ.drop es.length }
          ctl := { y.ctl with marker := none, settledEpoch := x.epoch, settledFault := x.faulted } } ∧
      (∀ e ∈ es, ∀ z, s.record? e.record = some z → (z.slots.map (·.route)).Nodup →
        ∀ w, t.record? e.record = some w →
          w.slotState r =
            if z.slotState r = some .sent ∨ z.slotState r = some .receipted then
              some (if x.faulted then .faulted else .settled)
            else z.slotState r) ∧
      (∀ n, (∀ e ∈ es, e.record ≠ n) → t.record? n = s.record? n) ∧
      s.counted t 1 (.route r .epochsSettled) ∧ s.counted t (if x.faulted then 1 else 0) (.route r .epochsFaulted) ∧
      ∀ e ∈ es, ∀ z sl, s.record? e.record = some z → (z.slots.map (·.route)).Nodup → z.slotOn r = some sl →
        sl.required = true → (sl.state = .sent ∨ sl.state = .receipted) → z.outcome = none →
        let settled := (settledAndOpen z.slots).1
        let waiting := (settledAndOpen z.slots).2
        settled < z.quorum → z.quorum ≤ settled + waiting →
        let o : Option RecOutcome :=
          if x.faulted then (if settled + waiting - 1 < z.quorum then some (.voided .faulted) else none)
          else if z.quorum ≤ settled + 1 then some .landed else none
        let slots := z.slots.map fun g =>
          if g.route ≠ r then g
          else if x.faulted then { g with state := .faulted, void := some .faulted } else { g with state := .settled, void := none }
        let sends := o.isSome ∧ z.state = .live ∧ z.notice = .owed ∧ s.clusterUp = true
        (∀ w, t.record? e.record = some w →
          w.outcome = o ∧ w.slots = slots ∧ w.notice = (if sends then .sent else z.notice) ∧
            w.state = if z.state = .live ∧ w.notice = .sent ∧ slots.all (·.state.terminal) then .draining else z.state) ∧
        (sends → t.outQ.length < 512 → ∀ v ∈ o,
          { dst := z.station, payload := noticePayload { z with slots := slots } v } ∈ t.outQ)

/-! ## Route Controller -/

/-- At a probe timer expiry the due mark is set and the timer restarts (R144); when the receipt delay has passed, the receipt due mark
is set (R170). That nothing happens before those times is the model's choice: log entry 2. -/
def Obligations.RouteTimersSetDueMarks : Prop :=
  ∀ (s : State) (r : RouteId),
    (∀ t0, (s.route r).ctl.probeTimer = some t0 →
      exec (.probeTimer r) s = .next
        (if t0 ≤ s.now then
          s.setRoute r
            { s.route r with
              ctl := { (s.route r).ctl with probeTimer := some (s.now + (s.route r).cfg.probePeriod.toNat * 1000) }
              tx := { (s.route r).tx with probeDue := true } }
        else s)) ∧
    ((s.route r).ctl.probeTimer = none → exec (.probeTimer r) s = .next s) ∧
    (∀ t0, (s.route r).inb.pendTime = some t0 →
      exec (.receiptDelayExpiry r) s = .next
        (if t0 + s.settings.receiptDelay ≤ s.now then
          s.setRoute r { s.route r with tx := { (s.route r).tx with receiptDue := true } }
        else s)) ∧
    ((s.route r).inb.pendTime = none → exec (.receiptDelayExpiry r) s = .next s)

/-- Probes that do not act are counted (R145, R146, R147); a PROBE of the known life makes a reply due; at an OPENING route an open
probe of a new life also resets the inbound state (R146, R158). -/
def Obligations.ProbesAnswered : Prop :=
  ∀ (s : State) (f : Frame) (c : Instr),
    (c = .probe f ∧ s.takesKind .longhaul 0x23 f ∨ c = .probeReply f ∧ s.takesKind .longhaul 0x24 f) →
    (readProbe f.payload = none → exec c s = .next (s.count (.inbound .probeCorrupt))) ∧
    ∀ p, readProbe f.payload = some p →
      (s.routeOfRegion p.src = none ∨ p.dst ≠ s.settings.localRegion.toNat →
        exec c s = .next (s.count (.inbound .probeMisrouted))) ∧
      ∀ r, s.routeOfRegion p.src = some r → p.dst = s.settings.localRegion.toNat →
        let x := s.route r
        (x.ctl.state = .closed → exec c s = .next (s.count (.route r .probeIgnored))) ∧
        (c = .probe f → x.ctl.state ≠ .closed →
          (p.openFlag = false → (x.ctl.state = .opening ∨ x.ctl.remoteLife ≠ some p.life) →
            exec c s = .next (s.count (.route r .probeIgnored))) ∧
          (x.ctl.remoteLife = some p.life → (p.openFlag = true ∨ x.ctl.state ≠ .opening) →
            exec c s = .next (s.setRoute r
              { x with ctl := { x.ctl with echo := p.life }, tx := { x.tx with replyDue := true } })) ∧
          (p.openFlag = true → x.ctl.state = .opening → x.ctl.remoteLife ≠ some p.life →
            ∃ t, exec c s = .next t ∧
              t = { s with routes := t.routes, assemblies := t.assemblies, pool := t.pool } ∧
              (∀ q, q ≠ r → t.route q = s.route q) ∧
              t.route r =
                { x with
                  ctl := { x.ctl with remoteLife := some p.life, echo := p.life }
                  tx := { x.tx with replyDue := true }
                  inb := Inbound.reset } ∧
              s.inboundDropped t r))

/-- An open PROBE of a new life rebases a route in service or IMPAIRED (R153, R63, R99, R102, R123, R126, R158): its transmissions are
ABANDONED and start anew, its queues, epoch, settled epoch, PAUSED and local life are kept. The notices that become due (R66, R67) and
then the alert of REMOTE_RESTART are queued, its assemblies are discarded or DETACHED, and extents return. That ROUTE_CHANGE
latches where it leaves IMPAIRED so is the model's reading, log entry 17; the order of the notices is log entry 9. -/
def Obligations.OpenProbeRebases : Prop :=
  ∀ (s : State) (f : Frame) (p : ProbeFrame) (r : RouteId),
    let x := s.route r
    s.takesKind .longhaul 0x23 f → readProbe f.payload = some p → s.routeOfRegion p.src = some r →
    p.dst = s.settings.localRegion.toNat → p.openFlag = true → x.ctl.state ≠ .closed → x.ctl.state ≠ .opening →
    x.ctl.remoteLife ≠ some p.life →
    ∃ t, exec (.probe f) s = .next t ∧
      t = { s with
            routes := t.routes, records := t.records, keyIndex := t.keyIndex, pool := t.pool, assemblies := t.assemblies
            descFree := s.descFree + x.tx.window.length
            latches := s.latches ||| 0x0400 ||| (if x.pace.regulator = .track then 0x0004 else 0) |||
              (if x.ctl.state = .impaired then 0x0001 else 0)
            outQ := t.outQ, counters := t.counters } ∧
      (∀ q, q ≠ r → t.route q = s.route q) ∧
      t.route r =
        { x with
          ctl := { x.ctl with state := .acquire, remoteLife := some p.life, echo := p.life, recovered := false
                              cleared := false, probeTimer := none, marker := none }
          pace := { rate := x.cfg.startRate.toNat, srtt := x.cfg.srttInit.toNat, credit := 0, regulator := .acquire
                    lastInc := none, lastDec := none, hold := none }
          tx := { nextSeq := 1, through := 0, window := [], inFlight := 0, resend := [], settleQ := [], timer := none
                  timeouts := 0, receiptDue := x.tx.receiptDue, probeDue := false, replyDue := true }
          bld := { x.bld with fill := .empty, fillSpan := Span.empty, ready := none, marker := none, holdStart := none }
          inb := Inbound.reset } ∧
      (∀ n y z, Table.rising s.records = true → s.record? n = some y → (y.slots.map (·.route)).Nodup →
        t.record? n = some z →
        z.slots.map (fun sl => (sl.route, sl.state, sl.packed)) =
          y.slots.map fun sl =>
            if sl.route ≠ r then (sl.route, sl.state, sl.packed)
            else if sl.state = .queued then (sl.route, .queued, 0)
            else if sl.state = .sent ∨ sl.state = .receipted then (sl.route, .abandoned, sl.packed)
            else (sl.route, sl.state, sl.packed)) ∧
      s.inboundDropped t r ∧
      (Table.rising s.records = true → (∀ e ∈ s.records, (e.2.slots.map (·.route)).Nodup) →
        let due := s.abandonDue r fun st => st == .sent || st == .receipted
        t.outQ = alertedOut s t (due.foldl (fun q e => queuedOut q e.1.station (noticePayload e.1 e.2)) s.outQ)) ∧
      s.counted t 1 (.route r .rebases)

/-- A PROBE_REPLY of this life (R147, R150, R137, R122): an OPENING route enters service; an IMPAIRED one is marked recovered, and
returns to ACQUIRE with its whole window listed for resend if it was cleared; any other reply is counted and changes nothing.
That one at an IMPAIRED route whose recovered flag stands already is not counted (R157) is log entry 38. -/
def Obligations.ProbeReplyTaken : Prop :=
  ∀ (s : State) (f : Frame) (p : ProbeFrame) (r : RouteId),
    let x := s.route r
    s.takesKind .longhaul 0x24 f → readProbe f.payload = some p → s.routeOfRegion p.src = some r →
    p.dst = s.settings.localRegion.toNat → x.ctl.state ≠ .closed →
    (x.ctl.state = .opening → p.echo = x.ctl.life →
      ∃ t, exec (.probeReply f) s = .next t ∧
        t = { s with
              routes := t.routes, latches := s.latches ||| 0x0001 ||| (if x.pace.regulator = .track then 0x0004 else 0)
              outQ := alertedOut s t s.outQ, counters := t.counters } ∧
        (∀ q, q ≠ r → t.route q = s.route q) ∧
        t.route r =
          { x with
            ctl := { x.ctl with remoteLife := some p.life, state := .acquire, epoch := 0, probeTimer := none }
            pace := { rate := x.cfg.startRate.toNat, srtt := x.cfg.srttInit.toNat, credit := 0, regulator := .acquire
                      lastInc := none, lastDec := none, hold := none }
            tx := { nextSeq := 1, through := 0, window := [], inFlight := 0, resend := [], settleQ := [], timer := none
                    timeouts := 0, receiptDue := x.tx.receiptDue, probeDue := false, replyDue := x.tx.replyDue } }) ∧
    (x.ctl.state = .impaired → p.echo = x.ctl.life → x.ctl.remoteLife = some p.life → x.ctl.cleared = false →
      exec (.probeReply f) s = .next (s.setRoute r { x with ctl := { x.ctl with recovered := true } })) ∧
    (x.ctl.state = .impaired → p.echo = x.ctl.life → x.ctl.remoteLife = some p.life → x.ctl.cleared = true →
      ∃ t, exec (.probeReply f) s = .next t ∧
        t = { s with
              routes := t.routes, latches := s.latches ||| 0x0001 ||| (if x.pace.regulator = .track then 0x0004 else 0)
              outQ := alertedOut s t s.outQ, counters := t.counters } ∧
        (∀ q, q ≠ r → t.route q = s.route q) ∧
        t.route r =
          { x with
            ctl := { x.ctl with state := .acquire, recovered := false, cleared := false, probeTimer := none }
            pace := { x.pace with rate := max x.cfg.floor.toNat (x.pace.rate / 2), credit := 0, regulator := .acquire
                                  hold := none, lastInc := some s.now, lastDec := some s.now }
            tx := { x.tx with
              probeDue := false, timeouts := 0
              window := x.tx.window.map fun d => { d with onList := true, requested := some s.now }
              resend := x.tx.window.map (·.seq)
              timer := if x.tx.window = [] then x.tx.timer else if x.ctl.paused then none else some s.now } }) ∧
    (¬ (x.ctl.state = .opening ∧ p.echo = x.ctl.life) →
      ¬ (x.ctl.state = .impaired ∧ p.echo = x.ctl.life ∧ x.ctl.remoteLife = some p.life) →
      exec (.probeReply f) s = .next (s.count (.route r .replyIgnored)))

/-- An epoch tick performs an armed turn (R39) and, at each route in service, issues a marker or defers (R154, R155, R95, R97). That nothing
happens before the tick is due is the model's choice, log entry 2, and so is the hold start of a span that closes ahead of a
marker and waits, log entry 41. -/
def Obligations.EpochTickTurnsAndMarks : Prop :=
  ∀ s : State,
    (s.now < s.lastTick + s.settings.epochPeriod * 1000 → exec .epochTick s = .next s) ∧
    (s.lastTick + s.settings.epochPeriod * 1000 ≤ s.now →
      ∃ t, exec .epochTick s = .next t ∧
        t = { s with
              lastTick := s.now, armed := false, routes := t.routes, counters := t.counters
              active := if s.armed then s.active.other else s.active
              generation := if s.armed then s.generation + 1 else s.generation } ∧
        ∀ r,
          let x := s.route r
          let e := if x.ctl.epoch = 0xFFFFFFFF then 1 else x.ctl.epoch + 1
          let inService := x.ctl.state = .acquire ∨ x.ctl.state = .track
          let closed : Span := { x.bld.fillSpan with srcRegion := s.settings.localRegion, dstRegion := x.cfg.region }
          (¬ inService → t.route r = x) ∧
          (inService → (x.ctl.paused = true ∨ x.ctl.marker.isSome) →
            t.route r = x ∧ s.counted t 1 (.route r .epochDeferred)) ∧
          (inService → x.ctl.paused = false → x.ctl.marker = none →
            (t.route r).ctl = { x.ctl with epoch := e, marker := some { epoch := e, requested := s.now, seq := none } } ∧
            (t.route r).tx = x.tx ∧ (t.route r).pace = x.pace ∧ (t.route r).inb = x.inb ∧
            s.counted t (if x.bld.fill = .filling then 1 else 0) (.route r .spansClosedMarker) ∧
            (t.route r).bld =
              match x.bld.ready, x.bld.fill with
              | none, .empty =>
                { x.bld with ready := some (markerSpan s.settings.localRegion x.cfg.region e), marker := none }
              | none, .filling =>
                { x.bld with ready := some closed, fill := .empty, fillSpan := Span.empty, marker := some e, holdStart := none }
              | none, .closed => { x.bld with ready := some x.bld.fillSpan, fill := .empty, fillSpan := Span.empty, marker := some e }
              | some _, .filling => { x.bld with fill := .closed, fillSpan := closed, marker := some e, holdStart := none }
              | some _, _ => { x.bld with marker := some e }))

/-! ## Inbound spans and delivery -/

/-- Received spans are judged (R159 to R161): a corrupt one latches BAD_SPAN, a misrouted one is counted; behind, it is a duplicate;
1 to 1,023 steps ahead, it is held; beyond, it is dropped without a receipt; at x with x held, the copy is a duplicate. At x it is
tried, or the copy held there (R160), and the held spans behind it are applied in turn until a slot is empty or a span is starved
(R164, R167). Nothing is applied exactly where the one tried first lacks assemblies or extents; it then stands held at x. That an
ahead span whose slot holds another sequence is a duplicate, that a span starved at x takes such a slot over, and that the
length held is the payload's, are log entries 40 and 37. The held spans stand in the slots of their sequences after reset, and
every step keeps that: the premise of the drain. -/
def Obligations.ReceivedSpansJudged : Prop :=
  (∀ (s : State) (f : Frame) (c : Instr) (k : SpanKind),
    (c = .dataSpan f ∧ k = .data ∧ s.takesKind .longhaul 0x20 f ∨
      c = .markerSpan f ∧ k = .marker ∧ s.takesKind .longhaul 0x21 f) →
    (readSpan k f.payload = none → ∃ t, exec c s = .next t ∧
      t = { s with latches := s.latches ||| 0x0040, outQ := alertedOut s t s.outQ, counters := t.counters } ∧
      s.counted t 1 (.inbound .spanCorrupt)) ∧
    ∀ sp, readSpan k f.payload = some sp →
      ((s.routeOfRegion sp.src = none ∨ sp.dst ≠ s.settings.localRegion.toNat ∨
          ∃ r, s.routeOfRegion sp.src = some r ∧ (s.route r).ctl.state = .closed) →
        exec c s = .next (s.count (.inbound .spanMisrouted))) ∧
      ∀ r, s.routeOfRegion sp.src = some r → sp.dst = s.settings.localRegion.toNat → (s.route r).ctl.state ≠ .closed →
        (s.route r).inb.expected ≠ 0 →
        let x := s.route r
        let due : Route := { x with tx := { x.tx with receiptDue := true } }
        let ahead := fun n => 1 ≤ n ∧ n ≤ 1023 ∧ seqAdvance n x.inb.expected = sp.seq
        let slot := sp.seq.toNat % 1024
        ((precedes sp.seq x.inb.expected = true ∨ (∃ n, ahead n) ∧ (Table.find x.inb.held slot).isSome) →
          exec c s = .next ((s.count (.route r .duplicateSpans)).setRoute r due)) ∧
        (precedes sp.seq x.inb.expected = false → sp.seq ≠ x.inb.expected → (∀ n, ¬ ahead n) →
          exec c s = .next (s.count (.route r .outOfWindow))) ∧
        ((∃ n, ahead n) → Table.find x.inb.held slot = none → ∃ t, exec c s = .next t ∧
          t = { s with routes := t.routes, counters := t.counters } ∧ (∀ q, q ≠ r → t.route q = s.route q) ∧
          (t.route r).inb =
            { x.inb with held := Table.insert x.inb.held slot { seq := sp.seq, len := f.payload.length, frame := f } } ∧
          t.route r = { (if (t.route r).inb.missing = x.inb.missing then x else due) with inb := (t.route r).inb } ∧
          s.countedOnly t [.route r .spansHeld]) ∧
        (sp.seq = x.inb.expected → (s.heldAtX r).isSome → ∃ t, exec c s = .next t ∧ (t.route r).tx.receiptDue = true ∧
          s.counted t 1 (.route r .duplicateSpans)) ∧
        (sp.seq = x.inb.expected → Table.rising x.inb.held = true → x.inb.heldSound →
          let copy := s.heldAtX r
          let first := copy.getD { span := sp, frame := f }
          ∃ t n, exec c s = .next t ∧ (n = 0 ↔ s.lacks first.span) ∧
          (n = 0 → t = { s with routes := t.routes, counters := t.counters } ∧ (∀ q, q ≠ r → t.route q = s.route q) ∧
            t.heldAtX r = some first ∧ s.counted t 1 (.route r .inboundStarved) ∧
            t.route r =
              { x with
                inb := { x.inb with
                  held := if copy.isSome then x.inb.held
                    else Table.insert x.inb.held slot { seq := sp.seq, len := f.payload.length, frame := f } }
                tx := { x.tx with receiptDue :=
                  x.tx.receiptDue || copy.isSome || decide ((t.route r).inb.missing ≠ x.inb.missing) } }) ∧
          (t.route r).inb.expected = seqAdvance n sp.seq ∧ s.counted t n (.route r .spansApplied) ∧
          (∀ m, n = m + 1 → (t.route r).inb.lastApplied = seqAdvance m sp.seq) ∧
          (∀ h, t.heldAtX r = some h → t.lacks h.span) ∧
          (∀ k h, Table.find (t.route r).inb.held k = some h →
            (Table.find x.inb.held k = some h ∨ h.seq = sp.seq) ∧
              ∀ i, i < n → ¬ (k = (seqAdvance i sp.seq).toNat % 1024 ∧ h.seq = seqAdvance i sp.seq)))) ∧
  (∀ r, (State.reset.route r).inb.heldSound) ∧
  ∀ s t : State, (∀ r, (s.route r).inb.heldSound) → step s = .next t → ∀ r, (t.route r).inb.heldSound

/-- A MARKER span at x with no span held (R167, R168, R169): it takes the completed assemblies ahead of it, or settles at once where
there is none, and clears the open fault into its flag. Where a marker is still pending the two merge: the new epoch, all
the assemblies ahead, and the fault of either. -/
def Obligations.MarkerSpanApplied : Prop :=
  ∀ (s : State) (f : Frame) (sp : SpanFrame) (r : RouteId),
    let x := s.route r
    let pending := x.inb.marker
    let n := s.assemblies.countP fun e =>
      e.2.route == r && e.2.state != .assembling && (e.2.standing == .behind || pending.isSome && e.2.standing == .ahead)
    let faulted := (pending.any fun m => m.faulted) || x.inb.openFault
    s.takesKind .longhaul 0x21 f → readSpan .marker f.payload = some sp → s.routeOfRegion sp.src = some r →
    sp.dst = s.settings.localRegion.toNat → x.ctl.state ≠ .closed → sp.seq = x.inb.expected → x.inb.held = [] →
    ∃ t, exec (.markerSpan f) s = .next t ∧
      t = { s with routes := t.routes, assemblies := t.assemblies, counters := t.counters } ∧
      (∀ q, q ≠ r → t.route q = s.route q) ∧
      t.route r =
        { x with
          tx := { x.tx with receiptDue := x.tx.receiptDue || decide (n = 0 ∨ x.inb.pendCount = 15) }
          inb := { x.inb with
            lastApplied := sp.seq, expected := seqSucc sp.seq, openFault := false
            pendCount := min 16 (x.inb.pendCount + 1)
            pendTime := if x.inb.pendCount = 0 then some s.now else x.inb.pendTime
            marker := if n = 0 then none else some { epoch := sp.epoch, count := n, faulted := faulted }
            settledEpoch := if n = 0 then sp.epoch else x.inb.settledEpoch
            settledFault := if n = 0 then faulted else x.inb.settledFault } } ∧
      (∀ a, t.asm? a = (s.asm? a).map fun z =>
        if z.route = r ∧ z.state ≠ .assembling ∧ z.standing = .behind then { z with standing := .ahead } else z) ∧
      s.counted t 1 (.route r .spansApplied) ∧ s.counted t 1 (.route r .markersApplied) ∧
      s.counted t (if n = 0 then 1 else 0) (.route r .markersSettled) ∧
      s.counted t (if n = 0 ∧ faulted = true then 1 else 0) (.route r .markersFaulted) ∧
      s.counted t (if pending.isSome then 1 else 0) (.route r .markersMerged)

/-- A DATA span at x that holds one segment (R163 to R167, R171, R75, R77, R78): an ERASE and a whole object complete an assembly for
delivery, a part begins or extends one and with its last completes it, a first part replaces one of the same key and stamp, a
bad object is discarded and sets the open fault, an ABORT discards, an orphan sets the open fault. The bytes taken stand at their
body positions in the assembly's extents, and every other byte of retention memory, all of it where none is taken, is as it was;
every other assembly stays, but that its delivery may start. A span of several whole objects and ERASEs gives each its own
assembly and extents, in order. A delivery that starts places its first frame by its own row: log entry 16. That OBJECTS_COMPLETE
is not counted for an ERASE is log entry 14, that a first part's data go to position 0 whatever its offset field holds log entry
45, and that the body check is 0 until the last part log entry 46. -/
def Obligations.DataSegmentApplied : Prop :=
  (∀ (s : State) (f : Frame) (sp : SpanFrame) (g : Segment) (r : RouteId) (a : Nat),
    let x := s.route r
    let n := (g.objLen + 65535) / 65536
    let crc := crc32c g.data
    s.takesKind .longhaul 0x20 f → readSpan .data f.payload = some sp → s.routeOfRegion sp.src = some r →
    sp.dst = s.settings.localRegion.toNat → x.ctl.state ≠ .closed → sp.seq = x.inb.expected → x.inb.held = [] →
    sp.segs = [g] → Table.rising s.assemblies = true →
    (g.kind = .erase ∨ g.kind = .putPart ∧ g.first = true →
      s.assemblies.length < 512 ∧ a < 512 ∧ s.asm? a = none ∧ ∀ b, b < a → s.asm? b ≠ none) →
    (g.kind = .putPart → g.first = true → n ≤ s.pool.count) →
    ∃ t, exec (.dataSpan f) s = .next t ∧
      t = { s with
            dram := t.dram, routes := t.routes, assemblies := t.assemblies, pool := t.pool, deliveryQ := t.deliveryQ
            dlanes := t.dlanes, latches := t.latches, outQ := alertedOut s t s.outQ, counters := t.counters } ∧
      (∀ q, q ≠ r → t.route q = s.route q) ∧ s.counted t 1 (.route r .spansApplied) ∧
      t.route r =
        { x with
          tx := { x.tx with receiptDue := x.tx.receiptDue || decide (x.inb.pendCount = 15) }
          inb := { x.inb with
            lastApplied := sp.seq, expected := seqSucc sp.seq, openFault := (t.route r).inb.openFault
            pendCount := min 16 (x.inb.pendCount + 1)
            pendTime := if x.inb.pendCount = 0 then some s.now else x.inb.pendTime } } ∧
      (∀ b z, s.asm? b = some z → (g.kind = .erase ∨ s.findAsm r g ≠ some (b, z)) → ∃ st,
        t.asm? b = some { z with state := st } ∧ (st = z.state ∨ st = .delivering ∧ b ∈ s.deliveryQ)) ∧
      (g.kind = .erase →
          t.dram = s.dram ∧ t.pool = s.pool ∧ t.latches = s.latches ∧ (t.route r).inb.openFault = x.inb.openFault ∧
          ∃ z, t.delivers a z ∧
            z = { route := r, kind := .erase, key := g.key, bucket := g.bucket, stamp := g.stamp, region := x.cfg.region
                  length := 0, check := 0, extents := [], received := 0, crc := 0xFFFFFFFF, state := z.state
                  standing := .behind }) ∧
      (g.kind = .putPart → g.first = true →
        (∀ m, (∀ i, i < g.data.length → bodyAddr (s.pool.toList.take n) i ≠ some m) → Mem.read t.dram m = Mem.read s.dram m) ∧
        (g.data.length ≤ g.objLen → s.extentsConserved →
          readBody t.dram (s.pool.toList.take n) 0 g.data.length = some g.data) ∧
        (g.objLen < g.data.length → t.dram = s.dram)) ∧
      (g.kind = .putPart → g.first = true → g.last = true → s.findAsm r g = none →
        (g.data.length = g.objLen → crc = g.check →
          (t.route r).inb.openFault = x.inb.openFault ∧ s.counted t 1 (.route r .objectsComplete) ∧
          t.pool.toList = s.pool.toList.drop n ∧
          ∃ z, t.delivers a z ∧
            z = { route := r, kind := .put, key := g.key, bucket := g.bucket, stamp := g.stamp, region := x.cfg.region
                  length := g.objLen, check := g.check, extents := s.pool.toList.take n, received := g.objLen
                  crc := crcBytes 0xFFFFFFFF g.data, state := z.state, standing := .behind }) ∧
        (¬ (g.data.length = g.objLen ∧ crc = g.check) →
          (t.route r).inb.openFault = true ∧ s.counted t 1 (.route r .objectsBad) ∧ t.asm? a = none ∧
          t.pool.toList = s.pool.toList.drop n ++ s.pool.toList.take n ∧ t.latches.getLsbD 7 = true)) ∧
      (g.kind = .putPart → g.first = true → g.last = false → s.findAsm r g = none →
        (g.data.length ≤ g.objLen →
          (t.route r).inb.openFault = x.inb.openFault ∧ t.pool.toList = s.pool.toList.drop n ∧
          t.deliveryQ = s.deliveryQ ∧ t.dlanes = s.dlanes ∧
          t.asm? a = some
            { route := r, kind := .put, key := g.key, bucket := g.bucket, stamp := g.stamp, region := x.cfg.region
              length := g.objLen, check := 0, extents := s.pool.toList.take n, received := g.data.length
              crc := crcBytes 0xFFFFFFFF g.data, state := .assembling, standing := .behind }) ∧
        (g.objLen < g.data.length →
          (t.route r).inb.openFault = true ∧ s.counted t 1 (.route r .objectsBad) ∧ t.asm? a = none ∧
          t.pool.toList = s.pool.toList.drop n ++ s.pool.toList.take n ∧ t.latches.getLsbD 7 = true)) ∧
      (g.kind = .putPart → g.first = true → ∀ b z, s.findAsm r g = some (b, z) →
        let c := if b < a then b else a
        let whole := g.data.length ≤ g.objLen ∧ (g.last = true → g.data.length = g.objLen ∧ crc = g.check)
        s.counted t 1 (.route r .assemblyReplaced) ∧ (c ≠ b → t.asm? b = none) ∧
        (whole →
          (t.route r).inb.openFault = x.inb.openFault ∧ t.pool.toList = s.pool.toList.drop n ++ z.extents ∧
          s.counted t (if g.last then 1 else 0) (.route r .objectsComplete) ∧
          ∃ w, t.asm? c = some w ∧ (g.last = false → w.state = .assembling) ∧ (g.last = true → t.delivers c w) ∧
            w = { route := r, kind := .put, key := g.key, bucket := g.bucket, stamp := g.stamp, region := x.cfg.region
                  length := g.objLen, check := if g.last then g.check else 0, extents := s.pool.toList.take n
                  received := g.data.length, crc := crcBytes 0xFFFFFFFF g.data, state := w.state, standing := .behind }) ∧
        (¬ whole →
          (t.route r).inb.openFault = true ∧ s.counted t 1 (.route r .objectsBad) ∧ t.asm? c = none ∧
          t.pool.toList = s.pool.toList.drop n ++ z.extents ++ s.pool.toList.take n ∧ t.latches.getLsbD 7 = true)) ∧
      (g.kind = .putPart → g.first = false → ∀ b z, s.findAsm r g = some (b, z) →
        let k := z.received + g.data.length
        let sum := crcBytes z.crc g.data
        (z.received ≠ g.offset →
          t.assemblies = s.assemblies ∧ t.pool = s.pool ∧ t.dram = s.dram ∧ t.latches = s.latches ∧
            (t.route r).inb.openFault = true ∧ s.counted t 1 (.route r .orphan)) ∧
        (z.received = g.offset → k ≤ z.length → g.last = false →
          (t.route r).inb.openFault = x.inb.openFault ∧ t.pool = s.pool ∧ t.deliveryQ = s.deliveryQ ∧ t.dlanes = s.dlanes ∧
          t.asm? b = some { z with received := k, crc := sum }) ∧
        (z.received = g.offset → g.last = true → k = z.length → sum ^^^ 0xFFFFFFFF = g.check →
          (t.route r).inb.openFault = x.inb.openFault ∧ t.pool = s.pool ∧ s.counted t 1 (.route r .objectsComplete) ∧
          ∃ w, t.delivers b w ∧
            w = { z with received := k, crc := sum, check := g.check, standing := .behind, state := w.state }) ∧
        (z.received = g.offset → (z.length < k ∨ g.last = true ∧ ¬ (k = z.length ∧ sum ^^^ 0xFFFFFFFF = g.check)) →
          (t.route r).inb.openFault = true ∧ s.counted t 1 (.route r .objectsBad) ∧ t.asm? b = none ∧
          t.pool.toList = s.pool.toList ++ z.extents ∧ t.latches.getLsbD 7 = true) ∧
        (z.received = g.offset → z.length < k → t.dram = s.dram) ∧
        (z.received = g.offset → ∀ m, (∀ i, i < g.data.length → bodyAddr z.extents (z.received + i) ≠ some m) →
          Mem.read t.dram m = Mem.read s.dram m) ∧
        (z.received = g.offset → k ≤ z.length → z.length ≤ 65536 * z.extents.length → s.extentsConserved →
          readBody t.dram z.extents z.received g.data.length = some g.data)) ∧
      (g.kind = .putPart → g.first = false → s.findAsm r g = none →
        t.assemblies = s.assemblies ∧ t.pool = s.pool ∧ t.dram = s.dram ∧ t.latches = s.latches ∧
          (t.route r).inb.openFault = true ∧ s.counted t 1 (.route r .orphan)) ∧
      (g.kind = .abort →
        t.dram = s.dram ∧ t.latches = s.latches ∧ (t.route r).inb.openFault = x.inb.openFault ∧
        (s.findAsm r g = none →
          t.assemblies = s.assemblies ∧ t.pool = s.pool ∧ s.counted t 1 (.route r .abortsUnmatched)) ∧
        ∀ b z, s.findAsm r g = some (b, z) →
          t.asm? b = none ∧ t.pool.toList = s.pool.toList ++ z.extents ∧ s.counted t 1 (.route r .abortsMatched))) ∧
  ∀ (s : State) (f : Frame) (sp : SpanFrame) (r : RouteId),
    let x := s.route r
    let need := fun g : Segment => if g.kind = .putPart then (g.objLen + 65535) / 65536 else 0
    s.takesKind .longhaul 0x20 f → readSpan .data f.payload = some sp → s.routeOfRegion sp.src = some r →
    sp.dst = s.settings.localRegion.toNat → x.ctl.state ≠ .closed → sp.seq = x.inb.expected → x.inb.held = [] →
    Table.rising s.assemblies = true → sp.segs.length ≤ 512 - s.assemblies.length → (sp.segs.map need).sum ≤ s.pool.count →
    (∀ g ∈ sp.segs, s.findAsm r g = none ∧
      (g.kind = .erase ∨
        g.kind = .putPart ∧ g.first = true ∧ g.last = true ∧ g.data.length = g.objLen ∧ crc32c g.data = g.check)) →
    ∃ t, exec (.dataSpan f) s = .next t ∧
      t = { s with
            dram := t.dram, routes := t.routes, assemblies := t.assemblies, pool := t.pool, deliveryQ := t.deliveryQ
            dlanes := t.dlanes, latches := t.latches, outQ := alertedOut s t s.outQ, counters := t.counters } ∧
      (t.route r).inb.expected = seqSucc sp.seq ∧ (t.route r).inb.openFault = x.inb.openFault ∧
      t.pool.toList = s.pool.toList.drop (sp.segs.map need).sum ∧
      (∀ m, (∀ (i : Nat) (h : i < sp.segs.length) (k : Nat), k < sp.segs[i].data.length →
          bodyAddr ((s.pool.toList.drop ((sp.segs.take i).map need).sum).take (need sp.segs[i])) k ≠ some m) →
        Mem.read t.dram m = Mem.read s.dram m) ∧
      s.counted t (sp.segs.countP fun g => g.kind == .putPart) (.route r .objectsComplete) ∧
      ∃ ns : List Nat, ns.length = sp.segs.length ∧ ns.Nodup ∧ (∀ a ∈ ns, a < 512 ∧ s.asm? a = none) ∧
        t.deliveryQ <:+ s.deliveryQ ++ ns ∧
        ∀ (i : Nat) (h : i < sp.segs.length) (k : i < ns.length),
          let g := sp.segs[i]
          let xs := (s.pool.toList.drop ((sp.segs.take i).map need).sum).take (need g)
          ∃ z, t.delivers ns[i] z ∧ (s.extentsConserved → g.kind = .putPart → readBody t.dram xs 0 g.objLen = some g.data) ∧
            z = { route := r, kind := if g.kind = .erase then .erase else .put, key := g.key, bucket := g.bucket, stamp := g.stamp
                  region := x.cfg.region, length := if g.kind = .erase then 0 else g.objLen
                  check := if g.kind = .erase then 0 else g.check, extents := xs
                  received := if g.kind = .erase then 0 else g.objLen
                  crc := if g.kind = .erase then 0xFFFFFFFF else crcBytes 0xFFFFFFFF g.data, state := z.state
                  standing := .behind }

/-- A DATA span at x that lacks an assembly or extents is starved (R75, R163, R164): it is held at x, nothing of it is applied, and no
receipt is made for it. That SPANS_HELD is not counted is the model's reading, log entry 14; the length held is the payload's, log entry
37. -/
def Obligations.StarvedSpanHeld : Prop :=
  ∀ (s : State) (f : Frame) (sp : SpanFrame) (r : RouteId),
    let x := s.route r
    let asms := sp.segs.countP fun g => decide (g.kind = .erase ∨ g.kind = .putPart ∧ g.first = true)
    let n := (sp.segs.map fun g => if g.kind = .putPart ∧ g.first = true then (g.objLen + 65535) / 65536 else 0).sum
    s.takesKind .longhaul 0x20 f → readSpan .data f.payload = some sp → s.routeOfRegion sp.src = some r →
    sp.dst = s.settings.localRegion.toNat → x.ctl.state ≠ .closed → sp.seq = x.inb.expected → x.inb.held = [] →
    (512 - s.assemblies.length < asms ∨ s.pool.count < n) →
    ∃ t, exec (.dataSpan f) s = .next t ∧ t = { s with routes := t.routes, counters := t.counters } ∧
      (∀ q, q ≠ r → t.route q = s.route q) ∧
      t.route r = { x with inb := { x.inb with
        held := [(sp.seq.toNat % 1024, { seq := sp.seq, len := f.payload.length, frame := f })] } } ∧
      s.countedOnly t (if 512 - s.assemblies.length < asms then [.route r .inboundStarved]
        else [.route r .inboundStarved, .inbound .extentRefusedIn])

/-- A SENDING lane places its next replica frame at the broadcast address while more than 64 places are free and no lower lane waits,
and with its last frame awaits the answer (R4, R172); without room it waits. The waiting mark, that nothing happens at a lane that
is not SENDING, and that a lane which does not wait yet gives way to a lower waiting lane only, are the model's choice: log
entries 16, 2 and 44. -/
def Obligations.ReplicaFramesPlaced : Prop :=
  ∀ (s : State) (l : DeliveryLaneId) (a : Assembly),
    let x := s.dlane l
    let room := s.outQ.length < 448 ∧ ∀ k, k < l → ¬ ((s.dlane k).state = .sending ∧ (s.dlane k).waiting = true)
    let placed := fun (p : List Byte) (y : DLane) =>
      exec (.deliveryFramePlace l) s =
        .next (State.setDLane { s with outQ := s.outQ ++ [{ dst := 0xFFFFFFFFFFFF, payload := p }] } l y)
    let awaiting : DLane := { x with state := .awaiting, waiting := false, expiry := some (s.now + s.settings.deliveryWait * 1000) }
    (x.state ≠ .sending → exec (.deliveryFramePlace l) s = .next s) ∧
    (x.state = .sending → ¬ room → exec (.deliveryFramePlace l) s = .next (s.setDLane l { x with waiting := true })) ∧
    (x.state = .sending → room → s.asm? x.asm = some a →
      (a.kind = .erase → placed (replicaErasePayload l.val a) awaiting) ∧
      (a.kind = .put → x.phase = .opening →
        placed (replicaOpenPayload l.val a) { x with waiting := false, phase := if a.length = 0 then .sealing else .body }) ∧
      (∀ d, a.kind = .put → x.phase = .body → readBody s.dram a.extents x.sendOffset (min 8192 (a.length - x.sendOffset)) = some d →
        placed (replicaBodyPayload l.val x.sendOffset d)
          { x with
            waiting := false, sendOffset := x.sendOffset + min 8192 (a.length - x.sendOffset)
            phase := if a.length ≤ x.sendOffset + min 8192 (a.length - x.sendOffset) then .sealing else .body }) ∧
      (a.kind = .put → x.phase = .sealing → placed (replicaSealPayload l.val) awaiting))

/-- A store answer at an AWAITING lane ends its delivery (R173, R169, R77); one with a wrong length, lane or verdict, and one for a lane
that is not AWAITING, is counted. With the cluster link up the lanes then IDLE take the waiting deliveries in turn (R171); a delivery
that starts places its first frame by its own row: log entry 16. That a lane that stays IDLE keeps its attempt count, assembly number
and send offset is the model's choice: log entry 47. -/
def Obligations.StoreAnswerEndsDelivery : Prop :=
  ∀ (s : State) (f : Frame), s.takesKind .cluster 0x06 f →
    ((¬ lengthAgrees f.payload 4 ∨ 15 < field f.payload 1 1 ∨ field f.payload 2 1 ∉ [1, 2, 3]) →
      exec (.storeAnswer f) s = .next (s.count (.inbound .answerMalformed))) ∧
    ∀ l : DeliveryLaneId, lengthAgrees f.payload 4 = true → field f.payload 1 1 = l.val → field f.payload 2 1 ∈ [1, 2, 3] →
      ((s.dlane l).state ≠ .awaiting → exec (.storeAnswer f) s = .next (s.count (.inbound .answerIgnored))) ∧
      ((s.dlane l).state = .awaiting →
        ∃ t, exec (.storeAnswer f) s = .next t ∧ s.deliveryEnded t l (decide (field f.payload 2 1 = 3)) ∧
          s.counted t 1 (.inbound
            (if field f.payload 2 1 = 1 then .deliveredStored else if field f.payload 2 1 = 2 then .deliveredOlder
              else .deliveryFailed)))

/-- At the expiry of an AWAITING lane's timer the delivery is sent again below three retries, and is treated as FAILED at the fourth
expiry (R174). The first frame of a retry, or of a next delivery, follows by its own row, and which frame is next and whether it
waits are the model's fields: log entry 16. That nothing happens before the expiry is the model's choice: log entry 2;
so is what a lane that stays IDLE after a failed delivery keeps: log entry 47. -/
def Obligations.DeliveryTimeoutRetries : Prop :=
  ∀ (s : State) (l : DeliveryLaneId),
    let x := s.dlane l
    ((x.state ≠ .awaiting ∨ ∀ t0, x.expiry = some t0 → s.now < t0) → exec (.deliveryTimeout l) s = .next s) ∧
    ∀ t0, x.state = .awaiting → x.expiry = some t0 → t0 ≤ s.now →
      (x.attempts < 3 → ∃ t, exec (.deliveryTimeout l) s = .next t ∧ t = { s with dlanes := t.dlanes, counters := t.counters } ∧
        t.dlane l = { x with state := .sending, attempts := x.attempts + 1, sendOffset := 0, phase := .opening, waiting := false
                             expiry := none } ∧
        (∀ k, k ≠ l → t.dlane k = s.dlane k) ∧
        s.countedOnly t [.inbound .deliveryRetries, .inbound .deliveriesStarted]) ∧
      (3 ≤ x.attempts → ∃ t, exec (.deliveryTimeout l) s = .next t ∧ s.deliveryEnded t l true ∧
        s.counted t 1 (.inbound .deliveryFailed))

/-! ## Management -/

/-- A control parcel joins the queue while it holds fewer than 4, else it is dropped and PARCEL_LOST latches; a head parcel that cannot
be read is answered REFUSED, BAD_COMMAND, with nothing changed (R177). The results of a TURN or ROUTE parcel that cannot be
read are the model's choice: log entries 4 and 15. -/
def Obligations.ControlParcelsQueued : Prop :=
  (∀ (s : State) (f : Frame), s.takesKind .cluster 0x30 f →
    (s.parcels.length < 4 →
      exec (.controlParcel f) s = .next { s with parcels := s.parcels ++ [{ src := f.src, bytes := f.payload }] }) ∧
    (4 ≤ s.parcels.length → ∃ t, exec (.controlParcel f) s = .next t ∧
      t = { s with latches := s.latches ||| 0x0020, outQ := alertedOut s t s.outQ, counters := t.counters } ∧
      s.counted t 1 (.management .parcelsDropped))) ∧
  ∀ (s : State) (p : Parcel) (rest : List Parcel), s.parcels = p :: rest → readParcel p.bytes = none →
    ∃ t results, exec .badCommand s = .next t ∧
      t = { s with outQ := t.outQ, parcels := rest, counters := t.counters, freeUses := t.freeUses } ∧
      s.answered t s.outQ p rest (.refused .badCommand) false results ∧
      (p.command ≠ 4 → p.command ≠ 5 → results = [] ∧ t.freeUses = s.freeUses)

/-- SELECT moves the cursor and discards staged words, or is refused and leaves both (R180); TURN arms a turn and discards words staged
on POLICY_STANDBY, or is refused TURN_PENDING, and reports the generation, the ACTIVE bank and the armed flag (R38). That
the word position returns to 0 with the discard is the model's reading, log entry 31; the zero bits beside the armed flag are
log entry 42. -/
def Obligations.SelectAndTurnJudged : Prop :=
  (∀ (s : State) (p : Parcel) (rest : List Parcel) (tn : TableName) (w : Bool) (i : Nat), s.parcels = p :: rest →
    readParcel p.bytes = some (.select tn w i) →
    let n := match tn with
      | .windows => 8
      | .placementMap => 16384
      | .policyStandby => 256
      | .policyActive => 256
      | .routes => 8
      | .localEntry => 1
    ∃ t, exec .select s = .next t ∧
      t = { s with cursor := t.cursor, outQ := t.outQ, parcels := rest, counters := t.counters } ∧
      (n ≤ i → t.cursor = s.cursor ∧ s.answered t s.outQ p rest (.refused .outOfRange) false []) ∧
      (i < n → tn = .policyActive → w = true →
        t.cursor = s.cursor ∧ s.answered t s.outQ p rest (.refused .wrongMode) false []) ∧
      (i < n → (tn ≠ .policyActive ∨ w = false) →
        t.cursor = { table := tn, index := i, pos := 0, write := w, staged := [] } ∧
        s.answered t s.outQ p rest .done (!s.cursor.staged.isEmpty)
          (toBE 1 tn.code ++ toBE 1 (if w then 1 else 0) ++ toBE 2 i))) ∧
  ∀ (s : State) (p : Parcel) (rest : List Parcel), s.parcels = p :: rest → readParcel p.bytes = some .turn →
    let drops := s.cursor.table = .policyStandby ∧ s.cursor.staged ≠ []
    let results := toBE 4 s.generation.toNat ++ [if s.active = .a then 0 else 1, 1, 0, 0]
    ∃ t, exec .turn s = .next t ∧
      t = { s with armed := true, cursor := t.cursor, outQ := t.outQ, parcels := rest, counters := t.counters } ∧
      (s.armed = true → t.cursor = s.cursor ∧ s.answered t s.outQ p rest (.refused .turnPending) false results) ∧
      (s.armed = false →
        t.cursor = (if drops then { s.cursor with pos := 0, staged := [] } else s.cursor) ∧
        s.answered t s.outQ p rest .done (decide drops) results)

/-- A STAGE parcel completes (R181): it is refused whole where R181, R182 and R37 say so; else its words join those
staged, each whole entry is committed if the checks of its table pass (R21, R27, R35, R36, R141, R185), each after those before
it, and stays as it was if not; the words left over stay staged, those past the end are not taken, and the results say what
was done. That a LOCAL commit's alert (R78) stands ahead of the status parcel is log entry 8, the reserved bits log entry 30. -/
def Obligations.StageCommitsEntries : Prop :=
  ∀ (s : State) (p : Parcel) (rest : List Parcel) (ws : List Word), s.parcels = p :: rest →
    readParcel p.bytes = some (.stage ws) →
    let c := s.cursor
    let i := c.index
    (∀ v : Reason,
      (v = .wrongMode ∧ c.write = false ∨
        c.write = true ∧ (v = .outOfRange ∧ c.table.entries ≤ i ∨
          i < c.table.entries ∧ (v = .standbyLocked ∧ c.table = .policyStandby ∧ s.armed = true ∨
            v = .routeActive ∧ c.table = .routes ∧
              ∃ (k : Nat) (r : RouteId), k < ws.length ∧ r.val = i + (c.pos + k) / 8 ∧ c.pos < 8 ∧
                (s.route r).ctl.state ≠ .closed))) →
      ∃ t, exec .stage s = .next t ∧ t = { s with outQ := t.outQ, parcels := rest, counters := t.counters } ∧
        s.answered t s.outQ p rest (.refused v) false []) ∧
    (c.write = true → i < c.table.entries → c.table ≠ .policyActive → c.pos < c.table.width → c.staged.length = c.pos →
      (c.table = .policyStandby → s.armed = false) →
      (c.table = .routes → ∀ (k : Nat) (r : RouteId), k < ws.length → r.val = i + (c.pos + k) / 8 → (s.route r).ctl.state = .closed) →
      let w := c.table.width
      let n := min ws.length (w * (c.table.entries - i) - c.pos)
      let words := c.staged ++ ws.take n
      let m := words.length / w
      let entry := fun j => (words.drop (j * w)).take w
      ∃ (t : State) (ok : Nat → Bool), exec .stage s = .next t ∧
        t = { s with
              windows := t.windows, pmap := t.pmap, bankA := t.bankA, bankB := t.bankB, routes := t.routes
              settings := t.settings, latches := t.latches, outQ := t.outQ, parcels := rest, counters := t.counters
              cursor := { c with index := i + m, pos := words.length % w, staged := words.drop (m * w) } } ∧
        (∀ j, j < m →
          (ok j = true ↔
            s.entryPasses (fun r => if r.val < i + j then (t.route r).cfg.region else (s.route r).cfg.region) c.table (i + j)
              (entry j))) ∧
        (let put := fun (tn : TableName) (j : Nat) => c.table = tn ∧ i ≤ j ∧ j < i + m ∧ ok (j - i) = true
        (∀ j : Fin 8, t.windows[j] = if put .windows j.val then Window.ofWords (entry (j.val - i)) else s.windows[j]) ∧
        (∀ j, t.mapEntry j =
          if put .placementMap j then
            let v := wordAt (entry (j - i)) 0
            { valid := v.getLsbD 31, hold := v.getLsbD 30, policy := v.extractLsb' 0 8 }
          else s.mapEntry j) ∧
        (∀ bk j, Table.find (t.bank bk) j =
          if put .policyStandby j ∧ bk ≠ s.active then policyOf (entry (j - i)) else Table.find (s.bank bk) j) ∧
        (∀ r : RouteId, t.route r =
          if put .routes r.val then { s.route r with cfg := RouteCfg.ofWords (entry (r.val - i)) } else s.route r) ∧
        t.settings = (if put .localEntry 0 then Settings.ofWords (entry 0) else s.settings) ∧
        t.latches = s.latches ||| (if put .localEntry 0 ∧ s.pool.count < t.settings.poolLowMark then 0x0008 else 0)) ∧
        let good := (List.range m).countP ok
        s.answered t (alertedOut s t s.outQ) p rest
          (if n < ws.length then .partDone (some .outOfRange) else if good < m then .partDone none else .done) false
          (toBE 2 good ++ toBE 2 (m - good) ++
            toBE 2 (if good < m then i + (List.range m).findIdx (fun j => !ok j) else 0xFFFF) ++ toBE 2 n ++
            toBE 2 (ws.length - n) ++ toBE 2 (i + m) ++ toBE 1 (words.length % w) ++ [0]))

/-- FETCH in READ mode returns the committed words of the cursor's table from its index and word position on, to its count or the end of
the table, and moves the cursor past them; in WRITE mode it is refused WRONG_MODE (R183, R32, R34). POLICY_ACTIVE names the ACTIVE
bank, POLICY_STANDBY the other one, and an absent policy reads as zeros (R34, R36). -/
def Obligations.FetchReturnsCommitted : Prop :=
  ∀ (s : State) (p : Parcel) (rest : List Parcel) (n : Nat), s.parcels = p :: rest → readParcel p.bytes = some (.fetch n) →
    let c := s.cursor
    let entry := fun j : Nat => match c.table with
      | .windows => if h : j < 8 then s.windows[j].words else []
      | .placementMap => [(s.mapEntry j).word]
      | .policyStandby => policyWords (Table.find (match s.active with | .a => s.bankB | .b => s.bankA) j)
      | .policyActive => policyWords (Table.find (match s.active with | .a => s.bankA | .b => s.bankB) j)
      | .routes => if h : j < 8 then (s.route ⟨j, h⟩).cfg.words else []
      | .localEntry => s.settings.words
    let ws := ((((List.range (c.table.entries - c.index)).flatMap fun j => entry (c.index + j)).drop c.pos).take n)
    let i := c.index + (c.pos + ws.length) / c.table.width
    let k := (c.pos + ws.length) % c.table.width
    (c.write = true → ∃ t, exec .fetch s = .next t ∧ t = { s with outQ := t.outQ, parcels := rest, counters := t.counters } ∧
      s.answered t s.outQ p rest (.refused .wrongMode) false []) ∧
    (c.write = false → c.pos < c.table.width → (c.table.entries ≤ c.index → c.pos = 0) →
      ∃ t, exec .fetch s = .next t ∧
        t = { s with cursor := { c with index := i, pos := k }, outQ := t.outQ, parcels := rest, counters := t.counters } ∧
        s.answered t s.outQ p rest .done false
          (toBE 2 i ++ toBE 1 k ++ toBE 1 0 ++ toBE 2 ws.length ++ toBE 2 0 ++ ws.flatMap fun w => toBE 4 w.toNat))

/-- ROUTE with action OPEN (R143, R126, R158, R186): refused as R143 judges, in its order, or the route opens with a life, the low
32 bits of the time base advanced by one, 0 skipped, until it is neither 0 nor the previous one, and ROUTE_CHANGE latches. The zero bits beside PAUSED are log entry 42. -/
def Obligations.RouteOpens : Prop :=
  ∀ (s : State) (p : Parcel) (rest : List Parcel) (r : RouteId), s.parcels = p :: rest →
    readParcel p.bytes = some (.route r.val .openRoute) →
    let x := s.route r
    let ready := x.ctl.state = .closed ∧ s.settings.localRegion ≠ 0 ∧ x.cfg.region ≠ 0 ∧ x.cfg.region ≠ s.settings.localRegion
    (∀ v : Reason,
      (v = .notClosed ∧ x.ctl.state ≠ .closed ∨
        x.ctl.state = .closed ∧ (v = .noRegion ∧ s.settings.localRegion = 0 ∨
          s.settings.localRegion ≠ 0 ∧ (v = .unconfigured ∧ x.cfg.region = 0 ∨
            x.cfg.region ≠ 0 ∧ v = .regionConflict ∧ x.cfg.region = s.settings.localRegion))) →
      ∃ t, exec .routeOpen s = .next t ∧ t = { s with outQ := t.outQ, parcels := rest, counters := t.counters } ∧
        s.answered t s.outQ p rest (.refused v) false (s.routeResults r)) ∧
    (ready → ∃ t life, exec .routeOpen s = .next t ∧ life ≠ 0 ∧ life ≠ x.ctl.prevLife ∧
      (let v := BitVec.ofNat 32 s.now
       let next := fun w : Word => if w = 0xFFFFFFFF then 1 else w + 1
       life = if v ≠ 0 ∧ v ≠ x.ctl.prevLife then v else if next v ≠ x.ctl.prevLife then next v else next (next v)) ∧
      t = { s with
            routes := t.routes, assemblies := t.assemblies, pool := t.pool
            latches := s.latches ||| 0x0001 ||| (if x.pace.regulator = .track then 0x0004 else 0)
            outQ := t.outQ, parcels := rest, counters := t.counters } ∧
      (∀ q, q ≠ r → t.route q = s.route q) ∧
      t.route r =
        { x with
          ctl := { state := .opening, paused := false, recovered := false, cleared := false, life := life, prevLife := life
                   remoteLife := none, echo := 0, probeTimer := some (s.now + x.cfg.probePeriod.toNat * 1000), epoch := 0
                   marker := none, settledEpoch := 0, settledFault := false }
          pace := { rate := x.cfg.startRate.toNat, srtt := x.cfg.srttInit.toNat, credit := 0, regulator := .acquire
                    lastInc := none, lastDec := none, hold := none }
          tx := { x.tx with probeDue := true }
          inb := Inbound.reset } ∧
      s.inboundDropped t r ∧
      s.answered t (alertedOut s t s.outQ) p rest .done false
        (toBE 1 r.val ++ [1, 0, 0] ++ toBE 4 life.toNat))

/-- ROUTE with action CLOSE (R152, R63, R99, R123, R125, R158): at a CLOSED route nothing changes; at any other every slot on it that is
not terminal is ABANDONED, its buffers, window and queues are discarded and its state is that of R102, R125 and R142. The notices
that become due (R66, R67) and the alert stand ahead of the status parcel (R186). That the reply echo is 0 after a close, which
R152 does not name, is log entry 39; the order of the notices log entry 9, the zero bits beside PAUSED log entry 42. -/
def Obligations.RouteCloses : Prop :=
  ∀ (s : State) (p : Parcel) (rest : List Parcel) (r : RouteId), s.parcels = p :: rest →
    readParcel p.bytes = some (.route r.val .closeRoute) →
    let x := s.route r
    (x.ctl.state = .closed → ∃ t, exec .routeClose s = .next t ∧
      t = { s with outQ := t.outQ, parcels := rest, counters := t.counters } ∧
      s.answered t s.outQ p rest .done false (s.routeResults r)) ∧
    (x.ctl.state ≠ .closed → ∃ t q, exec .routeClose s = .next t ∧ s.outQ <+: q ∧
      t = { s with
            routes := t.routes, records := t.records, keyIndex := t.keyIndex, pool := t.pool, assemblies := t.assemblies
            descFree := s.descFree + x.tx.window.length, latches := s.latches ||| 0x0001, outQ := t.outQ, parcels := rest
            counters := t.counters } ∧
      (∀ k, k ≠ r → t.route k = s.route k) ∧
      t.route r =
        { cfg := x.cfg, ctl := { Control.reset with prevLife := x.ctl.prevLife }, pace := Pacing.reset, tx := Transmit.reset
          bld := Builder.reset, inb := Inbound.reset } ∧
      (∀ n y z, Table.rising s.records = true → s.record? n = some y → (y.slots.map (·.route)).Nodup →
        t.record? n = some z →
        z.slots.map (fun sl => (sl.route, sl.state)) =
          y.slots.map fun sl => (sl.route, if sl.route = r ∧ ¬ sl.state.terminal then .abandoned else sl.state)) ∧
      s.inboundDropped t r ∧
      (Table.rising s.records = true → (∀ e ∈ s.records, (e.2.slots.map (·.route)).Nodup) →
        let due := s.abandonDue r fun st => !st.terminal
        q = alertedOut s t (due.foldl (fun q e => queuedOut q e.1.station (noticePayload e.1 e.2)) s.outQ)) ∧
      s.answered t q p rest .done false (toBE 1 r.val ++ [0, 0, 0, 0, 0, 0, 0]))

/-- PAUSE, RESUME and CLEAR_IMPAIRED (R150, R151, R137, R122, R186), with their refusals; a route number above 7 is refused OUT_OF_RANGE
for every action, its results free values: log entry 4. That an alert of CLEAR_IMPAIRED stands ahead of its status parcel, as
R186 says of OPEN and CLOSE, is log entry 8. -/
def Obligations.RouteActionsTaken : Prop :=
  ∀ (s : State) (p : Parcel) (rest : List Parcel) (n : Nat) (c : Instr) (a : RouteAction), s.parcels = p :: rest →
    readParcel p.bytes = some (.route n a) →
    (c = .routeOpen ∧ a = .openRoute ∨ c = .routeClose ∧ a = .closeRoute ∨ c = .pause ∧ a = .pause ∨ c = .resume ∧ a = .resume ∨
      c = .clearImpaired ∧ a = .clearImpaired) →
    (7 < n → ∃ t results, exec c s = .next t ∧
      t = { s with outQ := t.outQ, parcels := rest, counters := t.counters, freeUses := t.freeUses } ∧
      s.answered t s.outQ p rest (.refused .outOfRange) false results) ∧
    ∀ r : RouteId, r.val = n →
      let x := s.route r
      let w := x.tx.window
      let serves := x.ctl.state = .acquire ∨ x.ctl.state = .track
      (∀ v : Reason,
        ((c = .pause ∨ c = .resume ∨ c = .clearImpaired) ∧ v = .routeClosed ∧ x.ctl.state = .closed ∨
          c = .clearImpaired ∧ x.ctl.state ≠ .closed ∧ (v = .notImpaired ∧ x.ctl.state ≠ .impaired ∨
            x.ctl.state = .impaired ∧ v = .paused ∧ x.ctl.paused = true)) →
        ∃ t, exec c s = .next t ∧ t = { s with outQ := t.outQ, parcels := rest, counters := t.counters } ∧
          s.answered t s.outQ p rest (.refused v) false (s.routeResults r)) ∧
      ((c = .pause ∨ c = .resume) ∧ x.ctl.state ≠ .closed ∨
          c = .clearImpaired ∧ x.ctl.state = .impaired ∧ x.ctl.paused = false →
        ∃ t, exec c s = .next t ∧
          t = { s with routes := t.routes, latches := t.latches, outQ := t.outQ, parcels := rest, counters := t.counters } ∧
          (∀ q, q ≠ r → t.route q = s.route q) ∧
          s.answered t (alertedOut s t s.outQ) p rest .done false (t.routeResults r) ∧
          (c = .pause → t.latches = s.latches ∧ t.route r =
            if x.ctl.paused then x
            else { x with ctl := { x.ctl with paused := true }, tx := { x.tx with timer := none } }) ∧
          (c = .resume → t.latches = s.latches ∧ t.route r =
            if x.ctl.paused then
              { x with ctl := { x.ctl with paused := false }
                       tx := { x.tx with timer := if w ≠ [] ∧ serves then some s.now else x.tx.timer } }
            else x) ∧
          (c = .clearImpaired → x.ctl.cleared = true → t.latches = s.latches ∧ t.route r = x) ∧
          (c = .clearImpaired → x.ctl.cleared = false → x.ctl.recovered = false →
            t.latches = s.latches ∧ t.route r = { x with ctl := { x.ctl with cleared := true } }) ∧
          (c = .clearImpaired → x.ctl.cleared = false → x.ctl.recovered = true →
            t.latches = s.latches ||| 0x0001 ||| (if x.pace.regulator = .track then 0x0004 else 0) ∧
            t.route r =
              { x with
                ctl := { x.ctl with state := .acquire, recovered := false, cleared := false, probeTimer := none }
                pace := { x.pace with rate := max x.cfg.floor.toNat (x.pace.rate / 2), credit := 0, regulator := .acquire
                                      hold := none, lastInc := some s.now, lastDec := some s.now }
                tx := { x.tx with
                  probeDue := false, timeouts := 0
                  window := w.map fun d => { d with onList := true, requested := some s.now }
                  resend := w.map (·.seq)
                  timer := if w = [] then x.tx.timer else some s.now } }))

/-- STATUS changes no state and reports it (R187); COUNTERS returns every counter of its group, in the order `countersOf` names them
(12.3), and with its clear flag sets each to 0
before its own parcel is counted, and is refused OUT_OF_RANGE for no group (R191). That STATUS reports all blocks at one moment is
log entry 19, the order of the management group's counters log entry 5, the zero bits beside the flags log entry 42; a map index that
four bytes cannot hold is a free value, log entry 34. -/
def Obligations.StatusAndCountersRead : Prop :=
  (∀ (s : State) (p : Parcel) (rest : List Parcel), s.parcels = p :: rest → readParcel p.bytes = some .status →
    ∃ t res, exec .status s = .next t ∧ t = { s with outQ := t.outQ, parcels := rest, counters := t.counters } ∧
      s.answered t s.outQ p rest .done false res ∧ res.length = 36 + 8 * 40 ∧
      field res 0 4 = s.generation.toNat ∧ field res 4 1 = (if s.active = .a then 0 else 1) ∧
      field res 5 1 = (if s.armed then 1 else 0) ∧ field res 6 2 = 0 ∧ (s.pool.count < 2 ^ 32 → field res 8 4 = s.pool.count) ∧
      (s.records.length < 2 ^ 16 → field res 12 2 = s.records.length) ∧
      (s.assemblies.length < 2 ^ 16 → field res 14 2 = s.assemblies.length) ∧
      (s.deliveryQ.length < 2 ^ 16 → field res 16 2 = s.deliveryQ.length) ∧
      field res 18 2 = (s.latches &&& s.mask).toNat ∧ field res 20 2 = s.mask.toNat ∧
      field res 22 2 = 0 ∧
      (let reported := if (s.latches &&& s.mask).getLsbD 12 then s.faultRecord else none
       (reported = none → (res.drop 24).take 12 = List.replicate 12 0) ∧
       ∀ e, reported = some e →
         field res 24 1 = 1 ∧ field res 25 1 = (match e.kind with | .invalidEntry => 1 | .beyondMap => 2) ∧
           (e.window < 8 → field res 26 1 = e.window) ∧ field res 27 1 = 0 ∧ field32 res 28 = e.bucket ∧
           (e.index < 2 ^ 32 → field res 32 4 = e.index)) ∧
      ∀ r : RouteId,
        let c := (s.route r).ctl
        field res (36 + 40 * r.val) 1 =
          (match c.state with | .closed => 0 | .opening => 1 | .acquire => 2 | .track => 3 | .impaired => 4) ∧
        field res (36 + 40 * r.val + 1) 1 =
          (if c.paused then 1 else 0) + (if c.marker.isSome then 2 else 0) + (if c.settledFault then 4 else 0) ∧
        field res (36 + 40 * r.val + 2) 2 = 0 ∧
        (c.marker = none → field res (36 + 40 * r.val + 32) 8 = 0) ∧
        (∀ m, c.marker = some m → s.now < 2 ^ 64 → field res (36 + 40 * r.val + 32) 8 = s.now - m.requested) ∧
        field res (36 + 40 * r.val + 4) 4 = (s.route r).ctl.life.toNat ∧
        ((s.route r).pace.rate < 2 ^ 32 → field res (36 + 40 * r.val + 8) 4 = (s.route r).pace.rate) ∧
        ((s.route r).pace.srtt < 2 ^ 32 → field res (36 + 40 * r.val + 12) 4 = (s.route r).pace.srtt) ∧
        ((s.route r).tx.window.length < 2 ^ 32 → field res (36 + 40 * r.val + 16) 4 = (s.route r).tx.window.length) ∧
        ((s.route r).tx.inFlight < 2 ^ 32 → field res (36 + 40 * r.val + 20) 4 = (s.route r).tx.inFlight) ∧
        field res (36 + 40 * r.val + 24) 4 = (s.route r).ctl.epoch.toNat ∧
        field res (36 + 40 * r.val + 28) 4 = (s.route r).ctl.settledEpoch.toNat) ∧
  ∀ (s : State) (p : Parcel) (rest : List Parcel) (g : Nat) (clear : Bool), s.parcels = p :: rest →
    readParcel p.bytes = some (.counters g clear) →
    (countersOf g = none → ∃ t, exec .counters s = .next t ∧
      t = { s with outQ := t.outQ, parcels := rest, counters := t.counters } ∧
      s.answered t s.outQ p rest (.refused .outOfRange) false []) ∧
    ∀ cs, countersOf g = some cs → ∃ t u : State, exec .counters s = .next t ∧
      t = { s with outQ := t.outQ, parcels := rest, counters := t.counters } ∧ u = { s with counters := u.counters } ∧
      (∀ c : Counter, u.counter c = if clear ∧ c ∈ cs then 0 else s.counter c) ∧
      (∀ c : Counter, c ≠ .management .parcelsExecuted → c ≠ .ports .clusterOutDrop → t.counter c = u.counter c) ∧
      u.answered t s.outQ p rest .done false
        (toBE 1 g ++ toBE 1 0 ++ toBE 2 cs.length ++ cs.flatMap fun c => toBE 6 (s.counter c))

/-- EVENTS clears each named class whose lasting condition does not hold, takes the new mask, and sends one alert if a latched class is
newly enabled, ahead of its status parcel (R188, R190, R29). -/
def Obligations.EventsTaken : Prop :=
  ∀ (s : State) (p : Parcel) (rest : List Parcel) (mask clear : BitVec 13), s.parcels = p :: rest →
    readParcel p.bytes = some (.events mask clear) →
    let lasting : BitVec 13 :=
      (if ∃ r, (s.route r).ctl.state = .impaired then 0x0002 else 0) |||
        (if s.pool.count < s.settings.poolLowMark then 0x0008 else 0) ||| (if 7680 < s.records.length then 0x0010 else 0)
    let left := s.latches &&& ~~~(clear &&& ~~~lasting)
    ∃ t, exec .events s = .next t ∧
      t = { s with
            latches := left, mask := mask, faultRecord := if clear.getLsbD 12 then none else s.faultRecord
            outQ := t.outQ, parcels := rest, counters := t.counters } ∧
      s.answered t
        (if left &&& mask &&& ~~~s.mask = 0 ∨ s.settings.mgmtStation = 0 then s.outQ
          else queuedOut s.outQ s.settings.mgmtStation (alertPayload (left &&& mask) s.now))
        p rest .done false (toBE 2 (left &&& mask).toNat ++ toBE 2 mask.toNat)

/-- RESTART at the head of the queue completes: it returns the replication state to its power-on values and keeps the configuration,
the links, the pass-through FIFOs, the waiting parcels and the time base; only status and alert parcels stay in the output queue
(R192 and the rules it lists). A route keeps the life it last had as the previous life (R142). What R192 does not list stays as
log entry 29 says. -/
def Obligations.RestartKeepsConfiguration : Prop :=
  ∀ (s : State) (p : Parcel) (rest : List Parcel), s.parcels = p :: rest → readParcel p.bytes = some .restart →
    ∃ t, exec .restart s = .next t ∧
      t = { s with
            outQ := queuedOut (s.outQ.filter fun o => o.payload.head? = some 0x31 ∨ o.payload.head? = some 0x32) p.src
              (statusPayload p.command p.tag .done (!s.cursor.staged.isEmpty) [])
            arbLast := 8, lanes := t.lanes, armed := false, records := [], keyIndex := [], pool := t.pool, descFree := 65536
            routes := t.routes, assemblies := [], deliveryQ := [], dlanes := t.dlanes, parcels := rest
            cursor := { s.cursor with pos := 0, staged := [] }, latches := 0, faultRecord := none, counters := t.counters } ∧
      t.pool.toList = List.range 65536 ∧ (∀ l, t.lane l = Lane.reset) ∧ (∀ l, t.dlane l = DLane.reset) ∧
      (∀ r,
        let c := (s.route r).ctl
        t.route r =
          { Route.reset with
            cfg := (s.route r).cfg, ctl := { Control.reset with prevLife := if c.life = 0 then c.prevLife else c.life } }) ∧
      t.counter (.management .parcelsExecuted) = 1 ∧
      ∀ c : Counter, c ≠ .management .parcelsExecuted → c ≠ .ports .clusterOutDrop → t.counter c = 0

/-! ## The whole part -/

/-- What each command leaves: the configuration changes only at STAGE (R31, R36, R140, R184), the generation and the bank roles only at
an epoch tick (R33, R39), retention memory only at BODY and received spans (R72); latches clear only at EVENTS and RESTART
(R188), and counters fall only at COUNTERS and RESTART (R191). POWER_ON is set apart, but for the waiting commands and the pins,
which it leaves too: log entry 28. -/
def Obligations.OnlyNamedCommandsChange : Prop :=
  ∀ (c : Instr) (s t : State), exec c s = .next t →
    t.pending = s.pending ∧ t.clusterPins = s.clusterPins ∧ t.longPins = s.longPins ∧
    (c ≠ .powerOn →
      t.now = s.now ∧
      (c ≠ .stage → t.windows = s.windows ∧ t.pmap = s.pmap ∧ t.bankA = s.bankA ∧ t.bankB = s.bankB ∧
        t.settings = s.settings ∧ ∀ r, (t.route r).cfg = (s.route r).cfg) ∧
      (c ≠ .epochTick → t.generation = s.generation ∧ t.active = s.active ∧ t.lastTick = s.lastTick) ∧
      ((∀ f, c ≠ .body f ∧ c ≠ .dataSpan f ∧ c ≠ .markerSpan f) → t.dram = s.dram) ∧
      (c ≠ .events → t.mask = s.mask ∧ (c ≠ .restart → s.latches &&& ~~~t.latches = 0)) ∧
      (c ≠ .counters → c ≠ .restart → s.countersBounded → ∀ k, s.counter k ≤ t.counter k))

/-- The invariants that the statements below carry over a step hold after reset. -/
def Obligations.InvariantsHoldAtReset : Prop :=
  State.reset.queuesBounded ∧ State.reset.countersBounded ∧ State.reset.tablesCanonical ∧ State.reset.extentsConserved ∧
    State.reset.descriptorsConserved ∧ (∀ r, (State.reset.route r).windowSound) ∧ (∀ r, (State.reset.route r).paceSound) ∧
    State.reset.slotsDistinct ∧ State.reset.erasesUnpacked ∧ ∀ r, (State.reset.route r).tx.resendSound

/-- Every step keeps the bounds of the queues (R3, R4, R177) and of the counters (R191), and the canonical form of every sparse table,
retention memory's among them (the form is the model's: log entry 7). -/
def Obligations.StepKeepsQueuesAndTables : Prop :=
  (∀ s t : State, s.queuesBounded → step s = .next t → t.queuesBounded) ∧
    (∀ s t : State, s.countersBounded → step s = .next t → t.countersBounded) ∧
    ∀ s t : State, s.tablesCanonical → step s = .next t → t.tablesCanonical

/-- In every state each extent is free, or held by one record or one assembly (R71): every step keeps it. -/
def Obligations.StepKeepsExtents : Prop :=
  ∀ s t : State, s.tablesCanonical → s.extentsConserved → step s = .next t → t.extentsConserved

/-- The send window of every route is the serial run that R104 states, and descriptors held and free are 65,536 in all (R80): every step
keeps both. With the windows so, it keeps every resend list a list of window spans in sequence order, each at most once (R111). -/
def Obligations.StepKeepsSendWindows : Prop :=
  (∀ s t : State, (∀ r, (s.route r).windowSound) → s.descriptorsConserved → step s = .next t →
    (∀ r, (t.route r).windowSound) ∧ t.descriptorsConserved) ∧
  ∀ s t : State, (∀ r, (s.route r).windowSound) → (∀ r, (s.route r).tx.resendSound) → step s = .next t →
    ∀ r, (t.route r).tx.resendSound

/-- RATE lies from FLOOR to CEIL and SRTT from 1,000 to 2,000,000 while a route is not CLOSED (R138), with the credit from −9,215
to its cap (R125, R128), and the closed values with no resend timer running otherwise (R123, R125): every step keeps it, and with it
the bound of 9,216 bytes on every span's wire length (R128), on which the lower one rests. -/
def Obligations.StepKeepsPaceInRange : Prop :=
  ∀ s t : State, (∀ r, (s.route r).paceSound) → step s = .next t → ∀ r, (t.route r).paceSound

/-- A terminal slot never changes again (R48), whatever command is taken, while its record stands; and no record or policy ever has
two slots or destinations on one route (R35, R47), nor an ERASE a packed offset above 0 (R56). A record is taken up anew within one
event only where an OPEN or ERASE ends the object its lane streams (R13), which the premises set apart. -/
def Obligations.TerminalSlotsFinal : Prop :=
  (∀ s t : State, s.slotsDistinct → step s = .next t → t.slotsDistinct) ∧
    (∀ s t : State, s.erasesUnpacked → step s = .next t → t.erasesUnpacked) ∧
    ∀ (c : Instr) (s t : State) (n : Nat) (x y : Record), exec c s = .next t → c ≠ .powerOn → c ≠ .restart →
      (∀ f o, c = .openObject f → readOpen f.payload = some o → (s.lane o.lane).state ≠ .streaming) →
      (∀ f o, c = .erase f → readErase f.payload = some o → (s.lane o.lane).state ≠ .streaming) →
      s.slotsDistinct → Table.rising s.records = true → s.record? n = some x → t.record? n = some y →
      ∀ sl ∈ x.slots, sl.state.terminal = true → sl ∈ y.slots

/-! ## Layouts -/

/-- Table entries and their words agree (12.4, R21, R27, R35, R36, R141, R185): an entry is read back from its words, and words that pass
the checks are the words of the entry read from them. -/
def Obligations.EntryWordsRoundTrip : Prop :=
  (∀ w : Window, Window.ofWords w.words = w) ∧
  (∀ ws, ws.length = 4 → windowOk ws = true → (Window.ofWords ws).words = ws) ∧
  (∀ e : MapEntry, MapEntry.ofWord e.word = e) ∧ (∀ w, mapOk w = true → (MapEntry.ofWord w).word = w) ∧
  (∀ p : Policy, 1 ≤ p.quorum → p.quorum ≤ 4 → 1 ≤ p.dests.length → p.dests.length ≤ 4 →
    policyOf (policyWords (some p)) = some p) ∧
  policyOf (policyWords none) = none ∧ (∀ ws, ws.length = 6 → policyOk ws = true → policyWords (policyOf ws) = ws) ∧
  (∀ c : RouteCfg, RouteCfg.ofWords c.words = c) ∧
  (∀ (s : State) i ws, ws.length = 8 → s.routeOk i ws = true → (RouteCfg.ofWords ws).words = ws) ∧
  (∀ ws, ws.length = 8 → (Settings.ofWords ws).words = ws) ∧
  ∀ c : Settings, c.inRange = true → 10 ∣ c.epochPeriod → 10 ∣ c.deliveryWait → 65536 ∣ c.cutThrough → 10 ∣ c.spanHold →
    10 ∣ c.receiptDelay → Settings.ofWords c.words = c

/-- The frames the part composes have the bytes of 12.2 and 12.3, checks and padding included (R193, R194): receipts, probes, spans and
their segments, and the frames for the store and the management station (but the closing notice, whose bytes `LinkUpResumes`
gives); its readers read the long-haul ones back. The object event frames and control parcels it takes are read by the bytes of 12.3
(the STORE_ANSWER is `StoreAnswerEndsDelivery`'s). The check value of the nine digits is that of R193. The unnamed bits of a flag
byte, zero in what it sends and not read in what it takes, are log entry 42. -/
def Obligations.FramesReadBack : Prop :=
  crc32c [0x31, 0x32, 0x33, 0x34, 0x35, 0x36, 0x37, 0x38, 0x39] = 0xE3069283 ∧ crc32c [] = 0 ∧
  (∀ (src dst : BitVec 6) (through epoch : Word) (faulted : Bool) (gaps : List Word), gaps.length ≤ 8 →
    let p := receiptPayload src dst through epoch faulted gaps
    let n := 16 + 4 * gaps.length
    field p 0 1 = 0x22 ∧ field p 1 1 = (if faulted then 1 else 0) ∧ field p 2 1 = src.toNat ∧ field p 3 1 = dst.toNat ∧
      field32 p 4 = through ∧ field32 p 8 = epoch ∧ field p 12 1 = gaps.length ∧ field p 13 3 = 0 ∧
      (∀ (i : Nat) (h : i < gaps.length), field32 p (16 + 4 * i) = gaps[i]) ∧ field32 p n = crc32c (p.take n) ∧
      p.length = max 46 (n + 4) ∧ p.drop (n + 4) = List.replicate (42 - n) 0 ∧
    readReceipt p = some
      { src := src.toNat, dst := dst.toNat, through := through, epoch := epoch, faulted := faulted, gaps := gaps }) ∧
  (∀ (kind : Nat) (flag : Bool) (src dst : BitVec 6) (life echo : Word), kind < 256 →
    let p := probePayload kind flag src dst life echo
    field p 0 1 = kind ∧ field p 1 1 = (if flag then 1 else 0) ∧ field p 2 1 = src.toNat ∧ field p 3 1 = dst.toNat ∧
      field32 p 4 = life ∧ field32 p 8 = echo ∧ field32 p 12 = crc32c (p.take 12) ∧ p.drop 16 = List.replicate 30 0 ∧
    readProbe p = some
      { openFlag := flag, src := src.toNat, dst := dst.toNat, life := life, echo := echo }) ∧
  (∀ (l : Nat) (key : Digest) (stamp : Stamp) (v : Verdict), l < 256 →
    let p := answerPayload l key stamp v
    field p 0 1 = 0x10 ∧ field p 1 1 = l ∧
      field p 2 1 =
        (match v with
        | .accepted => 1 | .localOnly => 2 | .unplaced => 3 | .held => 4 | .stale => 5 | .crowded => 6 | .tableFull => 7 | .full => 8
        | .badBody => 9 | .badSequence => 10 | .dropped => 11 | .malformed => 12) ∧
      field p 3 1 = 0 ∧ field64 p 4 = key ∧ field64 p 12 = stamp ∧ p.drop 20 = List.replicate 26 0) ∧
  (∀ (l : DeliveryLaneId) (a : Assembly), a.length < 2 ^ 32 →
    let p := replicaOpenPayload l.val a
    field p 0 1 = 0x12 ∧ field p 1 1 = l.val ∧ field p 2 1 = a.region.toNat ∧ field p 3 1 = 0 ∧ field32 p 4 = a.bucket ∧
      field64 p 8 = a.key ∧ field64 p 16 = a.stamp ∧ field p 24 4 = a.length ∧ field32 p 28 = a.check ∧
      p.drop 32 = List.replicate 14 0 ∧
      replicaErasePayload l.val a = 0x15 :: (p.take 24).drop 1 ++ List.replicate 22 0 ∧
      replicaSealPayload l.val = 0x14 :: BitVec.ofNat 8 l.val :: List.replicate 44 0) ∧
  (∀ (l : DeliveryLaneId) (off : Nat) (d : List Byte), off < 2 ^ 32 → d.length ≤ 8192 →
    let p := replicaBodyPayload l.val off d
    field p 0 1 = 0x13 ∧ field p 1 1 = l.val ∧ field p 2 2 = d.length ∧ field p 4 4 = off ∧
      p.drop 8 = d ++ List.replicate (38 - d.length) 0) ∧
  (∀ (c tag : Nat) (v : ParcelVerdict) (discard : Bool) (res : List Byte), c < 256 → tag < 2 ^ 16 → res.length < 2 ^ 16 →
    let p := statusPayload c tag v discard res
    let number : Reason → Nat := fun
      | .badCommand => 1 | .outOfRange => 2 | .wrongMode => 3 | .standbyLocked => 4 | .routeActive => 5 | .turnPending => 6
      | .notClosed => 7 | .noRegion => 8 | .unconfigured => 9 | .regionConflict => 10 | .routeClosed => 11 | .notImpaired => 12
      | .paused => 13
    field p 0 1 = 0x31 ∧ field p 1 1 = c ∧ field p 2 2 = tag ∧
      field p 4 1 = (match v with | .done => 0 | .refused _ => 1 | .partDone _ => 2) ∧
      field p 5 1 = (match v with | .refused w | .partDone (some w) => number w | .done | .partDone none => 0) ∧
      field p 6 1 = (if discard then 1 else 0) ∧ field p 7 1 = 0 ∧ field p 8 2 = res.length ∧
      p.drop 10 = res ++ List.replicate (36 - res.length) 0) ∧
  (∀ (classes : BitVec 13) (now : Nat), now < 2 ^ 64 →
    let p := alertPayload classes now
    field p 0 1 = 0x32 ∧ field p 1 1 = 0 ∧ field p 2 2 = classes.toNat ∧ field p 4 8 = now ∧ p.drop 12 = List.replicate 34 0) ∧
  (∀ g : Segment, g.objLen < 2 ^ 32 → g.offset < 2 ^ 32 → g.data.length < 2 ^ 16 →
    let b := segmentBytes g
    field b 0 1 = (match g.kind with | .putPart => 1 | .erase => 2 | .abort => 3) ∧
      field b 1 1 = (if g.first then 1 else 0) + (if g.last then 2 else 0) ∧ field b 2 2 = 0 ∧ field32 b 4 = g.bucket ∧
      field64 b 8 = g.key ∧ field64 b 16 = g.stamp ∧ field b 24 4 = g.objLen ∧ field b 28 4 = g.offset ∧
      field b 32 2 = g.data.length ∧ field b 34 2 = 0 ∧ field32 b 36 = g.check ∧ b.drop 40 = g.data) ∧
  (∀ (k : SpanKind) (src dst : BitVec 6) (seq epoch : Word) (count : Nat) (area : List Byte), count ≤ 227 → area.length ≤ 9162 →
    let p := spanPayload k src dst seq epoch count area
    let n := 32 + area.length
    field p 0 1 = (match k with | .data => 0x20 | .marker => 0x21) ∧ field p 1 1 = 0 ∧ field p 2 1 = src.toNat ∧
      field p 3 1 = dst.toNat ∧ field32 p 4 = seq ∧ field32 p 8 = epoch ∧ field p 12 2 = count ∧ field p 14 2 = area.length ∧
      (p.drop 16).take 16 = List.replicate 16 0 ∧ (p.drop 32).take area.length = area ∧ field32 p n = crc32c (p.take n) ∧
      p.length = max 46 (n + 4) ∧ p.drop (n + 4) = List.replicate (42 - n) 0) ∧
  (∀ (p : List Byte) (o : OpenFrame), readOpen p = some o ↔
    (p.length = 32 ∨ p.length = 46) ∧ field p 1 1 = o.lane.val ∧ field32 p 4 = o.bucket ∧ field64 p 8 = o.key ∧
      field64 p 16 = o.stamp ∧ field p 24 4 = o.length ∧ field32 p 28 = o.check ∧ o.stamp ≠ 0 ∧ o.length ≤ 67108864) ∧
  (∀ (p : List Byte) (o : EraseFrame), readErase p = some o ↔
    (p.length = 24 ∨ p.length = 46) ∧ field p 1 1 = o.lane.val ∧ field32 p 4 = o.bucket ∧ field64 p 8 = o.key ∧
      field64 p 16 = o.stamp ∧ o.stamp ≠ 0) ∧
  (∀ (p : List Byte) (o : BodyFrame), readBodyFrame p = some o ↔
    field p 1 1 = o.lane.val ∧ field p 2 2 = o.data.length ∧ field p 4 4 = o.offset ∧ 1 ≤ o.data.length ∧ o.data.length ≤ 8192 ∧
      (p.length = 8 + o.data.length ∨ p.length = 46 ∧ o.data.length < 38) ∧ o.data = (p.drop 8).take o.data.length) ∧
  (∀ (p : List Byte) (l : LaneId), readLaneFrame p = some l ↔ (p.length = 4 ∨ p.length = 46) ∧ field p 1 1 = l.val) ∧
  (∀ (p : List Byte) (c : Command), readParcel p = some c ↔
    ∃ code n, field p 1 1 = code ∧ field p 4 2 = n ∧ (p.length = 8 + n ∨ p.length = 46 ∧ n < 38) ∧
      match c with
      | .select t w i =>
        code = 1 ∧ n = 4 ∧ field p 9 1 = (if w then 1 else 0) ∧ field p 10 2 = i ∧
          field p 8 1 =
            (match t with
            | .windows => 1 | .placementMap => 2 | .policyStandby => 3 | .policyActive => 4 | .routes => 5 | .localEntry => 6)
      | .stage ws =>
        code = 2 ∧ n = 4 * ws.length ∧ 1 ≤ ws.length ∧ ws.length ≤ 64 ∧
          ∀ (i : Nat) (h : i < ws.length), field32 p (8 + 4 * i) = ws[i]
      | .fetch k => code = 3 ∧ n = 2 ∧ field p 8 2 = k ∧ 1 ≤ k ∧ k ≤ 256
      | .turn => code = 4 ∧ n = 0
      | .route r a =>
        code = 5 ∧ n = 2 ∧ field p 8 1 = r ∧
          field p 9 1 = (match a with | .openRoute => 1 | .closeRoute => 2 | .pause => 3 | .resume => 4 | .clearImpaired => 5)
      | .status => code = 6 ∧ n = 0
      | .counters g clear =>
        code = 7 ∧ n = 2 ∧ field p 8 1 = g ∧ (g < 4 ∨ 16 ≤ g ∧ g < 32) ∧ fieldBit p 9 0 = clear
      | .events mask clear =>
        code = 8 ∧ n = 4 ∧ BitVec.ofNat 13 (field p 8 2) = mask ∧ BitVec.ofNat 13 (field p 10 2) = clear
      | .restart => code = 9 ∧ n = 0) ∧
  ∀ (k : SpanKind) (src dst : BitVec 6) (seq epoch : Word) (gs : List Segment), seq ≠ 0 → (k = .marker → gs = []) →
    gs.length ≤ 227 → (gs.flatMap segmentBytes).length ≤ 9162 →
    (∀ g ∈ gs, g.objLen ≤ 67108864 ∧ g.offset < 2 ^ 32 ∧ (g.kind = .putPart → g.data.length ≤ 9122) ∧
      (g.kind ≠ .putPart → g.data = [])) →
    readSpan k (spanPayload k src dst seq epoch gs.length (gs.flatMap segmentBytes)) = some
      { kind := k, src := src.toNat, dst := dst.toNat, seq := seq, epoch := epoch, segs := gs }

end Statements
end

