-- ==== Sys2Proof/Laws/Table.lean ====
section
/-! SUPPORT. The laws of sparse tables: what a write and a removal read back as, and that both keep the canonical form. -/

namespace Sys2Proof.Machine

variable {α : Type}

@[simp] theorem Table.find_nil (k : Nat) : Table.find ([] : Table α) k = none := rfl

@[simp] theorem Table.find_insert_self (t : Table α) (k : Nat) (v : α) : Table.find (Table.insert t k v) k = some v := by
  induction t with
  | nil => simp [Table.insert, Table.find]
  | cons e t ih =>
    obtain ⟨k', v'⟩ := e
    by_cases h1 : k < k'
    · simp [Table.insert, h1, Table.find]
    · by_cases h2 : k' = k
      · simp [Table.insert, h2, Table.find]
      · simp [Table.insert, h1, h2, Table.find, ih]

theorem Table.find_insert_of_ne (t : Table α) {k j : Nat} (v : α) (h : j ≠ k) :
    Table.find (Table.insert t k v) j = Table.find t j := by
  induction t with
  | nil => simp [Table.insert, Table.find, Ne.symm h]
  | cons e t ih =>
    obtain ⟨k', v'⟩ := e
    by_cases h1 : k < k'
    · simp [Table.insert, h1, Table.find, Ne.symm h]
    · by_cases h2 : k' = k
      · subst h2; simp [Table.insert, Table.find, Ne.symm h]
      · simp [Table.insert, h1, h2, Table.find, ih]

@[simp] theorem Table.find_erase_self (t : Table α) (k : Nat) : Table.find (Table.erase t k) k = none := by
  induction t with
  | nil => rfl
  | cons e t ih =>
    obtain ⟨k', v'⟩ := e
    by_cases h : k' = k
    · simpa [Table.erase, h] using ih
    · simpa [Table.erase, h, Table.find] using ih

theorem Table.find_erase_of_ne (t : Table α) {k j : Nat} (h : j ≠ k) : Table.find (Table.erase t k) j = Table.find t j := by
  induction t with
  | nil => rfl
  | cons e t ih =>
    obtain ⟨k', v'⟩ := e
    by_cases h1 : k' = k
    · subst h1
      have hf : Table.find ((k', v') :: t) j = Table.find t j := by simp [Table.find, Ne.symm h]
      rw [hf]
      simpa [Table.erase] using ih
    · have he : Table.erase ((k', v') :: t) k = (k', v') :: Table.erase t k := by simp [Table.erase, h1]
      rw [he, Table.find, Table.find, ih]

/-- What a defaulted table reads as after a write. -/
theorem Table.getD_setD [DecidableEq α] (t : Table α) (d : α) (k j : Nat) (v : α) :
    Table.getD (Table.setD t d k v) d j = if j = k then v else Table.getD t d j := by
  by_cases hj : j = k
  · subst hj
    by_cases hv : v = d
    · simp [Table.getD, Table.setD, hv]
    · simp [Table.getD, Table.setD, hv]
  · by_cases hv : v = d
    · simp [Table.getD, Table.setD, hv, hj, Table.find_erase_of_ne t hj]
    · simp [Table.getD, Table.setD, hv, hj, Table.find_insert_of_ne t v hj]

/-- Rising numbers, said of every pair. -/
theorem Table.rising_iff (t : Table α) : Table.rising t = true ↔ (t.map (·.1)).Pairwise (· < ·) := by
  induction t with
  | nil => simp [Table.rising]
  | cons e t ih =>
    cases t with
    | nil => simp [Table.rising]
    | cons e' t =>
      have hr : Table.rising (e :: e' :: t) = (decide (e.1 < e'.1) && Table.rising (e' :: t)) := rfl
      rw [hr, Bool.and_eq_true, ih, List.map_cons (l := e' :: t), List.pairwise_cons]
      constructor
      · rintro ⟨h1, h2⟩
        refine ⟨?_, h2⟩
        have h1 : e.1 < e'.1 := by simpa using h1
        intro a ha
        rcases List.mem_cons.1 ha with rfl | ha
        · exact h1
        · exact lt_trans h1 ((List.pairwise_cons.1 h2).1 a ha)
      · rintro ⟨h1, h2⟩
        exact ⟨by simpa using h1 e'.1 (by simp), h2⟩

/-- The numbers a write lists. -/
theorem Table.mem_insert (t : Table α) (k : Nat) (v : α) {e : Nat × α} (h : e ∈ Table.insert t k v) : e = (k, v) ∨ e ∈ t := by
  induction t with
  | nil => simpa [Table.insert] using h
  | cons e' t ih =>
    obtain ⟨k', v'⟩ := e'
    by_cases h1 : k < k'
    · simpa [Table.insert, h1] using h
    · by_cases h2 : k' = k
      · subst h2
        simp only [Table.insert, lt_irrefl, if_true, if_false, List.mem_cons] at h
        rcases h with h | h
        · exact .inl h
        · exact .inr (by simp [h])
      · simp only [Table.insert, h1, h2, if_false, List.mem_cons] at h
        rcases h with h | h
        · exact .inr (by simp [h])
        · rcases ih h with h | h
          · exact .inl h
          · exact .inr (by simp [h])

/-- A write keeps the numbers rising. -/
theorem Table.rising_insert (t : Table α) (k : Nat) (v : α) (h : Table.rising t = true) : Table.rising (Table.insert t k v) = true := by
  rw [Table.rising_iff] at h ⊢
  induction t with
  | nil => simp [Table.insert]
  | cons e t ih =>
    obtain ⟨k', v'⟩ := e
    simp only [List.map_cons, List.pairwise_cons, List.mem_map] at h
    obtain ⟨hk, ht⟩ := h
    by_cases h1 : k < k'
    · simp only [Table.insert, h1, if_true, List.map_cons, List.pairwise_cons]
      refine ⟨?_, ?_, ht⟩
      · intro a ha
        rcases List.mem_cons.1 ha with rfl | ha
        · exact h1
        · exact lt_trans h1 (hk a (by simpa using ha))
      · intro a ha; exact hk a (by simpa using ha)
    · by_cases h2 : k' = k
      · subst h2
        simp only [Table.insert, h1, if_true, if_false, List.map_cons, List.pairwise_cons]
        exact ⟨fun a ha => hk a (by simpa using ha), ht⟩
      · simp only [Table.insert, h1, h2, if_false, List.map_cons, List.pairwise_cons]
        refine ⟨?_, ih ht⟩
        intro a ha
        obtain ⟨e, he, rfl⟩ := List.mem_map.1 ha
        rcases Table.mem_insert t k v he with rfl | he
        · exact show k' < k by omega
        · exact hk _ ⟨e, he, rfl⟩

/-- Keeping some entries keeps the numbers rising. -/
theorem Table.rising_filter (t : Table α) (p : Nat × α → Bool) (h : Table.rising t = true) :
    Table.rising (t.filter p : Table α) = true := by
  rw [Table.rising_iff] at h ⊢
  exact h.sublist (List.filter_sublist.map _)

/-- A removal keeps the numbers rising. -/
theorem Table.rising_erase (t : Table α) (k : Nat) (h : Table.rising t = true) : Table.rising (Table.erase t k) = true :=
  Table.rising_filter t _ h

/-- A write of a defaulted table keeps its canonical form. -/
theorem Table.canonical_setD [DecidableEq α] (t : Table α) (d : α) (k : Nat) (v : α) (h : Table.canonical t d = true) :
    Table.canonical (Table.setD t d k v) d = true := by
  simp only [Table.canonical, Bool.and_eq_true, List.all_eq_true] at h ⊢
  by_cases hv : v = d
  · simp only [Table.setD, hv, if_true]
    exact ⟨Table.rising_erase t k h.1, fun e he => h.2 e (List.mem_of_mem_filter he)⟩
  · simp only [Table.setD, hv, if_false]
    refine ⟨Table.rising_insert t k v h.1, fun e he => ?_⟩
    rcases Table.mem_insert t k v he with rfl | he
    · simpa using hv
    · exact h.2 e he

end Sys2Proof.Machine
end

