-- ==== Sys2Proof/Laws/Memory.lean ====
section
/-! SUPPORT. Retention memory: every operation over it keeps the canonical form, reset has it, and a byte reads back as last
written. -/

namespace Sys2Proof.Machine

/-- Writing one byte keeps the canonical form. -/
theorem Memory.wf_write (m : List Host.Cell) (a : Nat) (b : Byte) (h : Memory.wf m = true) : Memory.wf (Mem.write m a b) = true :=
  Table.rising_insert m a b h

/-- Writing a payload keeps the canonical form. -/
theorem Memory.wf_writeBody (bs : List Byte) (m : List Host.Cell) (extents : List Nat) (p : Nat) (h : Memory.wf m = true) :
    Memory.wf (writeBody m extents p bs) = true := by
  induction bs generalizing m p with
  | nil => exact h
  | cons b bs ih =>
    rw [writeBody]
    apply ih
    cases bodyAddr extents p with
    | none => exact h
    | some a => exact Memory.wf_write m a b h

/-- Memory at reset is in canonical form. -/
theorem Memory.wf_reset : Memory.wf State.reset.dram = true := rfl

/-- A byte reads back as last written. -/
@[simp] theorem Mem.read_write_self (m : List Host.Cell) (a : Nat) (b : Byte) : Mem.read (Mem.write m a b) a = some b :=
  Table.find_insert_self m a b

/-- A write leaves every other byte as it was. -/
theorem Mem.read_write_of_ne (m : List Host.Cell) {a c : Nat} (b : Byte) (h : c ≠ a) : Mem.read (Mem.write m a b) c = Mem.read m c :=
  Table.find_insert_of_ne m b h

/-- Writing a payload leaves every byte outside its body positions as it was. -/
theorem Mem.read_writeBody_of_ne (bs : List Byte) (m : List Host.Cell) (extents : List Nat) (p c : Nat)
    (h : ∀ i, i < bs.length → bodyAddr extents (p + i) ≠ some c) : Mem.read (writeBody m extents p bs) c = Mem.read m c := by
  induction bs generalizing m p with
  | nil => rfl
  | cons b bs ih =>
    rw [writeBody, ih _ (p + 1) fun i hi => by
      have := h (i + 1) (by simpa using hi)
      rwa [show p + (i + 1) = p + 1 + i by omega] at this]
    have h0 := h 0 (by simp)
    rw [Nat.add_zero] at h0
    cases hb : bodyAddr extents p with
    | none => rfl
    | some a => exact Mem.read_write_of_ne m b fun hc => h0 (by rw [hb, hc])

end Sys2Proof.Machine
end

