-- ==== Sys2Proof/Laws/State.lean ====
section
/-! SUPPORT. One lemma per field per update of the state: an update leaves every field but its own as it was. -/

namespace Sys2Proof.Machine

variable (s : State)

/-! ## setRoute -/

@[simp] theorem State.setRoute_now (r : RouteId) (x : Route) : (s.setRoute r x).now = s.now := rfl
@[simp] theorem State.setRoute_clusterPins (r : RouteId) (x : Route) : (s.setRoute r x).clusterPins = s.clusterPins := rfl
@[simp] theorem State.setRoute_longPins (r : RouteId) (x : Route) : (s.setRoute r x).longPins = s.longPins := rfl
@[simp] theorem State.setRoute_clusterUp (r : RouteId) (x : Route) : (s.setRoute r x).clusterUp = s.clusterUp := rfl
@[simp] theorem State.setRoute_longUp (r : RouteId) (x : Route) : (s.setRoute r x).longUp = s.longUp := rfl
@[simp] theorem State.setRoute_passOut (r : RouteId) (x : Route) : (s.setRoute r x).passOut = s.passOut := rfl
@[simp] theorem State.setRoute_passIn (r : RouteId) (x : Route) : (s.setRoute r x).passIn = s.passIn := rfl
@[simp] theorem State.setRoute_outQ (r : RouteId) (x : Route) : (s.setRoute r x).outQ = s.outQ := rfl
@[simp] theorem State.setRoute_clusterTx (r : RouteId) (x : Route) : (s.setRoute r x).clusterTx = s.clusterTx := rfl
@[simp] theorem State.setRoute_clusterLast (r : RouteId) (x : Route) : (s.setRoute r x).clusterLast = s.clusterLast := rfl
@[simp] theorem State.setRoute_longTx (r : RouteId) (x : Route) : (s.setRoute r x).longTx = s.longTx := rfl
@[simp] theorem State.setRoute_arbLast (r : RouteId) (x : Route) : (s.setRoute r x).arbLast = s.arbLast := rfl
@[simp] theorem State.setRoute_lanes (r : RouteId) (x : Route) : (s.setRoute r x).lanes = s.lanes := rfl
@[simp] theorem State.setRoute_windows (r : RouteId) (x : Route) : (s.setRoute r x).windows = s.windows := rfl
@[simp] theorem State.setRoute_pmap (r : RouteId) (x : Route) : (s.setRoute r x).pmap = s.pmap := rfl
@[simp] theorem State.setRoute_faultRecord (r : RouteId) (x : Route) : (s.setRoute r x).faultRecord = s.faultRecord := rfl
@[simp] theorem State.setRoute_bankA (r : RouteId) (x : Route) : (s.setRoute r x).bankA = s.bankA := rfl
@[simp] theorem State.setRoute_bankB (r : RouteId) (x : Route) : (s.setRoute r x).bankB = s.bankB := rfl
@[simp] theorem State.setRoute_active (r : RouteId) (x : Route) : (s.setRoute r x).active = s.active := rfl
@[simp] theorem State.setRoute_generation (r : RouteId) (x : Route) : (s.setRoute r x).generation = s.generation := rfl
@[simp] theorem State.setRoute_armed (r : RouteId) (x : Route) : (s.setRoute r x).armed = s.armed := rfl
@[simp] theorem State.setRoute_records (r : RouteId) (x : Route) : (s.setRoute r x).records = s.records := rfl
@[simp] theorem State.setRoute_keyIndex (r : RouteId) (x : Route) : (s.setRoute r x).keyIndex = s.keyIndex := rfl
@[simp] theorem State.setRoute_dram (r : RouteId) (x : Route) : (s.setRoute r x).dram = s.dram := rfl
@[simp] theorem State.setRoute_pool (r : RouteId) (x : Route) : (s.setRoute r x).pool = s.pool := rfl
@[simp] theorem State.setRoute_descFree (r : RouteId) (x : Route) : (s.setRoute r x).descFree = s.descFree := rfl
@[simp] theorem State.setRoute_lastTick (r : RouteId) (x : Route) : (s.setRoute r x).lastTick = s.lastTick := rfl
@[simp] theorem State.setRoute_pacingNext (r : RouteId) (x : Route) : (s.setRoute r x).pacingNext = s.pacingNext := rfl
@[simp] theorem State.setRoute_assemblies (r : RouteId) (x : Route) : (s.setRoute r x).assemblies = s.assemblies := rfl
@[simp] theorem State.setRoute_deliveryQ (r : RouteId) (x : Route) : (s.setRoute r x).deliveryQ = s.deliveryQ := rfl
@[simp] theorem State.setRoute_dlanes (r : RouteId) (x : Route) : (s.setRoute r x).dlanes = s.dlanes := rfl
@[simp] theorem State.setRoute_parcels (r : RouteId) (x : Route) : (s.setRoute r x).parcels = s.parcels := rfl
@[simp] theorem State.setRoute_cursor (r : RouteId) (x : Route) : (s.setRoute r x).cursor = s.cursor := rfl
@[simp] theorem State.setRoute_latches (r : RouteId) (x : Route) : (s.setRoute r x).latches = s.latches := rfl
@[simp] theorem State.setRoute_mask (r : RouteId) (x : Route) : (s.setRoute r x).mask = s.mask := rfl
@[simp] theorem State.setRoute_counters (r : RouteId) (x : Route) : (s.setRoute r x).counters = s.counters := rfl
@[simp] theorem State.setRoute_settings (r : RouteId) (x : Route) : (s.setRoute r x).settings = s.settings := rfl
@[simp] theorem State.setRoute_freeUses (r : RouteId) (x : Route) : (s.setRoute r x).freeUses = s.freeUses := rfl
@[simp] theorem State.setRoute_pending (r : RouteId) (x : Route) : (s.setRoute r x).pending = s.pending := rfl

/-! ## updRoute -/

@[simp] theorem State.updRoute_now (r : RouteId) (f : Route → Route) : (s.updRoute r f).now = s.now := rfl
@[simp] theorem State.updRoute_clusterPins (r : RouteId) (f : Route → Route) : (s.updRoute r f).clusterPins = s.clusterPins := rfl
@[simp] theorem State.updRoute_longPins (r : RouteId) (f : Route → Route) : (s.updRoute r f).longPins = s.longPins := rfl
@[simp] theorem State.updRoute_clusterUp (r : RouteId) (f : Route → Route) : (s.updRoute r f).clusterUp = s.clusterUp := rfl
@[simp] theorem State.updRoute_longUp (r : RouteId) (f : Route → Route) : (s.updRoute r f).longUp = s.longUp := rfl
@[simp] theorem State.updRoute_passOut (r : RouteId) (f : Route → Route) : (s.updRoute r f).passOut = s.passOut := rfl
@[simp] theorem State.updRoute_passIn (r : RouteId) (f : Route → Route) : (s.updRoute r f).passIn = s.passIn := rfl
@[simp] theorem State.updRoute_outQ (r : RouteId) (f : Route → Route) : (s.updRoute r f).outQ = s.outQ := rfl
@[simp] theorem State.updRoute_clusterTx (r : RouteId) (f : Route → Route) : (s.updRoute r f).clusterTx = s.clusterTx := rfl
@[simp] theorem State.updRoute_clusterLast (r : RouteId) (f : Route → Route) : (s.updRoute r f).clusterLast = s.clusterLast := rfl
@[simp] theorem State.updRoute_longTx (r : RouteId) (f : Route → Route) : (s.updRoute r f).longTx = s.longTx := rfl
@[simp] theorem State.updRoute_arbLast (r : RouteId) (f : Route → Route) : (s.updRoute r f).arbLast = s.arbLast := rfl
@[simp] theorem State.updRoute_lanes (r : RouteId) (f : Route → Route) : (s.updRoute r f).lanes = s.lanes := rfl
@[simp] theorem State.updRoute_windows (r : RouteId) (f : Route → Route) : (s.updRoute r f).windows = s.windows := rfl
@[simp] theorem State.updRoute_pmap (r : RouteId) (f : Route → Route) : (s.updRoute r f).pmap = s.pmap := rfl
@[simp] theorem State.updRoute_faultRecord (r : RouteId) (f : Route → Route) : (s.updRoute r f).faultRecord = s.faultRecord := rfl
@[simp] theorem State.updRoute_bankA (r : RouteId) (f : Route → Route) : (s.updRoute r f).bankA = s.bankA := rfl
@[simp] theorem State.updRoute_bankB (r : RouteId) (f : Route → Route) : (s.updRoute r f).bankB = s.bankB := rfl
@[simp] theorem State.updRoute_active (r : RouteId) (f : Route → Route) : (s.updRoute r f).active = s.active := rfl
@[simp] theorem State.updRoute_generation (r : RouteId) (f : Route → Route) : (s.updRoute r f).generation = s.generation := rfl
@[simp] theorem State.updRoute_armed (r : RouteId) (f : Route → Route) : (s.updRoute r f).armed = s.armed := rfl
@[simp] theorem State.updRoute_records (r : RouteId) (f : Route → Route) : (s.updRoute r f).records = s.records := rfl
@[simp] theorem State.updRoute_keyIndex (r : RouteId) (f : Route → Route) : (s.updRoute r f).keyIndex = s.keyIndex := rfl
@[simp] theorem State.updRoute_dram (r : RouteId) (f : Route → Route) : (s.updRoute r f).dram = s.dram := rfl
@[simp] theorem State.updRoute_pool (r : RouteId) (f : Route → Route) : (s.updRoute r f).pool = s.pool := rfl
@[simp] theorem State.updRoute_descFree (r : RouteId) (f : Route → Route) : (s.updRoute r f).descFree = s.descFree := rfl
@[simp] theorem State.updRoute_lastTick (r : RouteId) (f : Route → Route) : (s.updRoute r f).lastTick = s.lastTick := rfl
@[simp] theorem State.updRoute_pacingNext (r : RouteId) (f : Route → Route) : (s.updRoute r f).pacingNext = s.pacingNext := rfl
@[simp] theorem State.updRoute_assemblies (r : RouteId) (f : Route → Route) : (s.updRoute r f).assemblies = s.assemblies := rfl
@[simp] theorem State.updRoute_deliveryQ (r : RouteId) (f : Route → Route) : (s.updRoute r f).deliveryQ = s.deliveryQ := rfl
@[simp] theorem State.updRoute_dlanes (r : RouteId) (f : Route → Route) : (s.updRoute r f).dlanes = s.dlanes := rfl
@[simp] theorem State.updRoute_parcels (r : RouteId) (f : Route → Route) : (s.updRoute r f).parcels = s.parcels := rfl
@[simp] theorem State.updRoute_cursor (r : RouteId) (f : Route → Route) : (s.updRoute r f).cursor = s.cursor := rfl
@[simp] theorem State.updRoute_latches (r : RouteId) (f : Route → Route) : (s.updRoute r f).latches = s.latches := rfl
@[simp] theorem State.updRoute_mask (r : RouteId) (f : Route → Route) : (s.updRoute r f).mask = s.mask := rfl
@[simp] theorem State.updRoute_counters (r : RouteId) (f : Route → Route) : (s.updRoute r f).counters = s.counters := rfl
@[simp] theorem State.updRoute_settings (r : RouteId) (f : Route → Route) : (s.updRoute r f).settings = s.settings := rfl
@[simp] theorem State.updRoute_freeUses (r : RouteId) (f : Route → Route) : (s.updRoute r f).freeUses = s.freeUses := rfl
@[simp] theorem State.updRoute_pending (r : RouteId) (f : Route → Route) : (s.updRoute r f).pending = s.pending := rfl

/-! ## updCtl -/

@[simp] theorem State.updCtl_now (r : RouteId) (f : Control → Control) : (s.updCtl r f).now = s.now := rfl
@[simp] theorem State.updCtl_clusterPins (r : RouteId) (f : Control → Control) : (s.updCtl r f).clusterPins = s.clusterPins := rfl
@[simp] theorem State.updCtl_longPins (r : RouteId) (f : Control → Control) : (s.updCtl r f).longPins = s.longPins := rfl
@[simp] theorem State.updCtl_clusterUp (r : RouteId) (f : Control → Control) : (s.updCtl r f).clusterUp = s.clusterUp := rfl
@[simp] theorem State.updCtl_longUp (r : RouteId) (f : Control → Control) : (s.updCtl r f).longUp = s.longUp := rfl
@[simp] theorem State.updCtl_passOut (r : RouteId) (f : Control → Control) : (s.updCtl r f).passOut = s.passOut := rfl
@[simp] theorem State.updCtl_passIn (r : RouteId) (f : Control → Control) : (s.updCtl r f).passIn = s.passIn := rfl
@[simp] theorem State.updCtl_outQ (r : RouteId) (f : Control → Control) : (s.updCtl r f).outQ = s.outQ := rfl
@[simp] theorem State.updCtl_clusterTx (r : RouteId) (f : Control → Control) : (s.updCtl r f).clusterTx = s.clusterTx := rfl
@[simp] theorem State.updCtl_clusterLast (r : RouteId) (f : Control → Control) : (s.updCtl r f).clusterLast = s.clusterLast := rfl
@[simp] theorem State.updCtl_longTx (r : RouteId) (f : Control → Control) : (s.updCtl r f).longTx = s.longTx := rfl
@[simp] theorem State.updCtl_arbLast (r : RouteId) (f : Control → Control) : (s.updCtl r f).arbLast = s.arbLast := rfl
@[simp] theorem State.updCtl_lanes (r : RouteId) (f : Control → Control) : (s.updCtl r f).lanes = s.lanes := rfl
@[simp] theorem State.updCtl_windows (r : RouteId) (f : Control → Control) : (s.updCtl r f).windows = s.windows := rfl
@[simp] theorem State.updCtl_pmap (r : RouteId) (f : Control → Control) : (s.updCtl r f).pmap = s.pmap := rfl
@[simp] theorem State.updCtl_faultRecord (r : RouteId) (f : Control → Control) : (s.updCtl r f).faultRecord = s.faultRecord := rfl
@[simp] theorem State.updCtl_bankA (r : RouteId) (f : Control → Control) : (s.updCtl r f).bankA = s.bankA := rfl
@[simp] theorem State.updCtl_bankB (r : RouteId) (f : Control → Control) : (s.updCtl r f).bankB = s.bankB := rfl
@[simp] theorem State.updCtl_active (r : RouteId) (f : Control → Control) : (s.updCtl r f).active = s.active := rfl
@[simp] theorem State.updCtl_generation (r : RouteId) (f : Control → Control) : (s.updCtl r f).generation = s.generation := rfl
@[simp] theorem State.updCtl_armed (r : RouteId) (f : Control → Control) : (s.updCtl r f).armed = s.armed := rfl
@[simp] theorem State.updCtl_records (r : RouteId) (f : Control → Control) : (s.updCtl r f).records = s.records := rfl
@[simp] theorem State.updCtl_keyIndex (r : RouteId) (f : Control → Control) : (s.updCtl r f).keyIndex = s.keyIndex := rfl
@[simp] theorem State.updCtl_dram (r : RouteId) (f : Control → Control) : (s.updCtl r f).dram = s.dram := rfl
@[simp] theorem State.updCtl_pool (r : RouteId) (f : Control → Control) : (s.updCtl r f).pool = s.pool := rfl
@[simp] theorem State.updCtl_descFree (r : RouteId) (f : Control → Control) : (s.updCtl r f).descFree = s.descFree := rfl
@[simp] theorem State.updCtl_lastTick (r : RouteId) (f : Control → Control) : (s.updCtl r f).lastTick = s.lastTick := rfl
@[simp] theorem State.updCtl_pacingNext (r : RouteId) (f : Control → Control) : (s.updCtl r f).pacingNext = s.pacingNext := rfl
@[simp] theorem State.updCtl_assemblies (r : RouteId) (f : Control → Control) : (s.updCtl r f).assemblies = s.assemblies := rfl
@[simp] theorem State.updCtl_deliveryQ (r : RouteId) (f : Control → Control) : (s.updCtl r f).deliveryQ = s.deliveryQ := rfl
@[simp] theorem State.updCtl_dlanes (r : RouteId) (f : Control → Control) : (s.updCtl r f).dlanes = s.dlanes := rfl
@[simp] theorem State.updCtl_parcels (r : RouteId) (f : Control → Control) : (s.updCtl r f).parcels = s.parcels := rfl
@[simp] theorem State.updCtl_cursor (r : RouteId) (f : Control → Control) : (s.updCtl r f).cursor = s.cursor := rfl
@[simp] theorem State.updCtl_latches (r : RouteId) (f : Control → Control) : (s.updCtl r f).latches = s.latches := rfl
@[simp] theorem State.updCtl_mask (r : RouteId) (f : Control → Control) : (s.updCtl r f).mask = s.mask := rfl
@[simp] theorem State.updCtl_counters (r : RouteId) (f : Control → Control) : (s.updCtl r f).counters = s.counters := rfl
@[simp] theorem State.updCtl_settings (r : RouteId) (f : Control → Control) : (s.updCtl r f).settings = s.settings := rfl
@[simp] theorem State.updCtl_freeUses (r : RouteId) (f : Control → Control) : (s.updCtl r f).freeUses = s.freeUses := rfl
@[simp] theorem State.updCtl_pending (r : RouteId) (f : Control → Control) : (s.updCtl r f).pending = s.pending := rfl

/-! ## updPace -/

@[simp] theorem State.updPace_now (r : RouteId) (f : Pacing → Pacing) : (s.updPace r f).now = s.now := rfl
@[simp] theorem State.updPace_clusterPins (r : RouteId) (f : Pacing → Pacing) : (s.updPace r f).clusterPins = s.clusterPins := rfl
@[simp] theorem State.updPace_longPins (r : RouteId) (f : Pacing → Pacing) : (s.updPace r f).longPins = s.longPins := rfl
@[simp] theorem State.updPace_clusterUp (r : RouteId) (f : Pacing → Pacing) : (s.updPace r f).clusterUp = s.clusterUp := rfl
@[simp] theorem State.updPace_longUp (r : RouteId) (f : Pacing → Pacing) : (s.updPace r f).longUp = s.longUp := rfl
@[simp] theorem State.updPace_passOut (r : RouteId) (f : Pacing → Pacing) : (s.updPace r f).passOut = s.passOut := rfl
@[simp] theorem State.updPace_passIn (r : RouteId) (f : Pacing → Pacing) : (s.updPace r f).passIn = s.passIn := rfl
@[simp] theorem State.updPace_outQ (r : RouteId) (f : Pacing → Pacing) : (s.updPace r f).outQ = s.outQ := rfl
@[simp] theorem State.updPace_clusterTx (r : RouteId) (f : Pacing → Pacing) : (s.updPace r f).clusterTx = s.clusterTx := rfl
@[simp] theorem State.updPace_clusterLast (r : RouteId) (f : Pacing → Pacing) : (s.updPace r f).clusterLast = s.clusterLast := rfl
@[simp] theorem State.updPace_longTx (r : RouteId) (f : Pacing → Pacing) : (s.updPace r f).longTx = s.longTx := rfl
@[simp] theorem State.updPace_arbLast (r : RouteId) (f : Pacing → Pacing) : (s.updPace r f).arbLast = s.arbLast := rfl
@[simp] theorem State.updPace_lanes (r : RouteId) (f : Pacing → Pacing) : (s.updPace r f).lanes = s.lanes := rfl
@[simp] theorem State.updPace_windows (r : RouteId) (f : Pacing → Pacing) : (s.updPace r f).windows = s.windows := rfl
@[simp] theorem State.updPace_pmap (r : RouteId) (f : Pacing → Pacing) : (s.updPace r f).pmap = s.pmap := rfl
@[simp] theorem State.updPace_faultRecord (r : RouteId) (f : Pacing → Pacing) : (s.updPace r f).faultRecord = s.faultRecord := rfl
@[simp] theorem State.updPace_bankA (r : RouteId) (f : Pacing → Pacing) : (s.updPace r f).bankA = s.bankA := rfl
@[simp] theorem State.updPace_bankB (r : RouteId) (f : Pacing → Pacing) : (s.updPace r f).bankB = s.bankB := rfl
@[simp] theorem State.updPace_active (r : RouteId) (f : Pacing → Pacing) : (s.updPace r f).active = s.active := rfl
@[simp] theorem State.updPace_generation (r : RouteId) (f : Pacing → Pacing) : (s.updPace r f).generation = s.generation := rfl
@[simp] theorem State.updPace_armed (r : RouteId) (f : Pacing → Pacing) : (s.updPace r f).armed = s.armed := rfl
@[simp] theorem State.updPace_records (r : RouteId) (f : Pacing → Pacing) : (s.updPace r f).records = s.records := rfl
@[simp] theorem State.updPace_keyIndex (r : RouteId) (f : Pacing → Pacing) : (s.updPace r f).keyIndex = s.keyIndex := rfl
@[simp] theorem State.updPace_dram (r : RouteId) (f : Pacing → Pacing) : (s.updPace r f).dram = s.dram := rfl
@[simp] theorem State.updPace_pool (r : RouteId) (f : Pacing → Pacing) : (s.updPace r f).pool = s.pool := rfl
@[simp] theorem State.updPace_descFree (r : RouteId) (f : Pacing → Pacing) : (s.updPace r f).descFree = s.descFree := rfl
@[simp] theorem State.updPace_lastTick (r : RouteId) (f : Pacing → Pacing) : (s.updPace r f).lastTick = s.lastTick := rfl
@[simp] theorem State.updPace_pacingNext (r : RouteId) (f : Pacing → Pacing) : (s.updPace r f).pacingNext = s.pacingNext := rfl
@[simp] theorem State.updPace_assemblies (r : RouteId) (f : Pacing → Pacing) : (s.updPace r f).assemblies = s.assemblies := rfl
@[simp] theorem State.updPace_deliveryQ (r : RouteId) (f : Pacing → Pacing) : (s.updPace r f).deliveryQ = s.deliveryQ := rfl
@[simp] theorem State.updPace_dlanes (r : RouteId) (f : Pacing → Pacing) : (s.updPace r f).dlanes = s.dlanes := rfl
@[simp] theorem State.updPace_parcels (r : RouteId) (f : Pacing → Pacing) : (s.updPace r f).parcels = s.parcels := rfl
@[simp] theorem State.updPace_cursor (r : RouteId) (f : Pacing → Pacing) : (s.updPace r f).cursor = s.cursor := rfl
@[simp] theorem State.updPace_latches (r : RouteId) (f : Pacing → Pacing) : (s.updPace r f).latches = s.latches := rfl
@[simp] theorem State.updPace_mask (r : RouteId) (f : Pacing → Pacing) : (s.updPace r f).mask = s.mask := rfl
@[simp] theorem State.updPace_counters (r : RouteId) (f : Pacing → Pacing) : (s.updPace r f).counters = s.counters := rfl
@[simp] theorem State.updPace_settings (r : RouteId) (f : Pacing → Pacing) : (s.updPace r f).settings = s.settings := rfl
@[simp] theorem State.updPace_freeUses (r : RouteId) (f : Pacing → Pacing) : (s.updPace r f).freeUses = s.freeUses := rfl
@[simp] theorem State.updPace_pending (r : RouteId) (f : Pacing → Pacing) : (s.updPace r f).pending = s.pending := rfl

/-! ## updTx -/

@[simp] theorem State.updTx_now (r : RouteId) (f : Transmit → Transmit) : (s.updTx r f).now = s.now := rfl
@[simp] theorem State.updTx_clusterPins (r : RouteId) (f : Transmit → Transmit) : (s.updTx r f).clusterPins = s.clusterPins := rfl
@[simp] theorem State.updTx_longPins (r : RouteId) (f : Transmit → Transmit) : (s.updTx r f).longPins = s.longPins := rfl
@[simp] theorem State.updTx_clusterUp (r : RouteId) (f : Transmit → Transmit) : (s.updTx r f).clusterUp = s.clusterUp := rfl
@[simp] theorem State.updTx_longUp (r : RouteId) (f : Transmit → Transmit) : (s.updTx r f).longUp = s.longUp := rfl
@[simp] theorem State.updTx_passOut (r : RouteId) (f : Transmit → Transmit) : (s.updTx r f).passOut = s.passOut := rfl
@[simp] theorem State.updTx_passIn (r : RouteId) (f : Transmit → Transmit) : (s.updTx r f).passIn = s.passIn := rfl
@[simp] theorem State.updTx_outQ (r : RouteId) (f : Transmit → Transmit) : (s.updTx r f).outQ = s.outQ := rfl
@[simp] theorem State.updTx_clusterTx (r : RouteId) (f : Transmit → Transmit) : (s.updTx r f).clusterTx = s.clusterTx := rfl
@[simp] theorem State.updTx_clusterLast (r : RouteId) (f : Transmit → Transmit) : (s.updTx r f).clusterLast = s.clusterLast := rfl
@[simp] theorem State.updTx_longTx (r : RouteId) (f : Transmit → Transmit) : (s.updTx r f).longTx = s.longTx := rfl
@[simp] theorem State.updTx_arbLast (r : RouteId) (f : Transmit → Transmit) : (s.updTx r f).arbLast = s.arbLast := rfl
@[simp] theorem State.updTx_lanes (r : RouteId) (f : Transmit → Transmit) : (s.updTx r f).lanes = s.lanes := rfl
@[simp] theorem State.updTx_windows (r : RouteId) (f : Transmit → Transmit) : (s.updTx r f).windows = s.windows := rfl
@[simp] theorem State.updTx_pmap (r : RouteId) (f : Transmit → Transmit) : (s.updTx r f).pmap = s.pmap := rfl
@[simp] theorem State.updTx_faultRecord (r : RouteId) (f : Transmit → Transmit) : (s.updTx r f).faultRecord = s.faultRecord := rfl
@[simp] theorem State.updTx_bankA (r : RouteId) (f : Transmit → Transmit) : (s.updTx r f).bankA = s.bankA := rfl
@[simp] theorem State.updTx_bankB (r : RouteId) (f : Transmit → Transmit) : (s.updTx r f).bankB = s.bankB := rfl
@[simp] theorem State.updTx_active (r : RouteId) (f : Transmit → Transmit) : (s.updTx r f).active = s.active := rfl
@[simp] theorem State.updTx_generation (r : RouteId) (f : Transmit → Transmit) : (s.updTx r f).generation = s.generation := rfl
@[simp] theorem State.updTx_armed (r : RouteId) (f : Transmit → Transmit) : (s.updTx r f).armed = s.armed := rfl
@[simp] theorem State.updTx_records (r : RouteId) (f : Transmit → Transmit) : (s.updTx r f).records = s.records := rfl
@[simp] theorem State.updTx_keyIndex (r : RouteId) (f : Transmit → Transmit) : (s.updTx r f).keyIndex = s.keyIndex := rfl
@[simp] theorem State.updTx_dram (r : RouteId) (f : Transmit → Transmit) : (s.updTx r f).dram = s.dram := rfl
@[simp] theorem State.updTx_pool (r : RouteId) (f : Transmit → Transmit) : (s.updTx r f).pool = s.pool := rfl
@[simp] theorem State.updTx_descFree (r : RouteId) (f : Transmit → Transmit) : (s.updTx r f).descFree = s.descFree := rfl
@[simp] theorem State.updTx_lastTick (r : RouteId) (f : Transmit → Transmit) : (s.updTx r f).lastTick = s.lastTick := rfl
@[simp] theorem State.updTx_pacingNext (r : RouteId) (f : Transmit → Transmit) : (s.updTx r f).pacingNext = s.pacingNext := rfl
@[simp] theorem State.updTx_assemblies (r : RouteId) (f : Transmit → Transmit) : (s.updTx r f).assemblies = s.assemblies := rfl
@[simp] theorem State.updTx_deliveryQ (r : RouteId) (f : Transmit → Transmit) : (s.updTx r f).deliveryQ = s.deliveryQ := rfl
@[simp] theorem State.updTx_dlanes (r : RouteId) (f : Transmit → Transmit) : (s.updTx r f).dlanes = s.dlanes := rfl
@[simp] theorem State.updTx_parcels (r : RouteId) (f : Transmit → Transmit) : (s.updTx r f).parcels = s.parcels := rfl
@[simp] theorem State.updTx_cursor (r : RouteId) (f : Transmit → Transmit) : (s.updTx r f).cursor = s.cursor := rfl
@[simp] theorem State.updTx_latches (r : RouteId) (f : Transmit → Transmit) : (s.updTx r f).latches = s.latches := rfl
@[simp] theorem State.updTx_mask (r : RouteId) (f : Transmit → Transmit) : (s.updTx r f).mask = s.mask := rfl
@[simp] theorem State.updTx_counters (r : RouteId) (f : Transmit → Transmit) : (s.updTx r f).counters = s.counters := rfl
@[simp] theorem State.updTx_settings (r : RouteId) (f : Transmit → Transmit) : (s.updTx r f).settings = s.settings := rfl
@[simp] theorem State.updTx_freeUses (r : RouteId) (f : Transmit → Transmit) : (s.updTx r f).freeUses = s.freeUses := rfl
@[simp] theorem State.updTx_pending (r : RouteId) (f : Transmit → Transmit) : (s.updTx r f).pending = s.pending := rfl

/-! ## updBld -/

@[simp] theorem State.updBld_now (r : RouteId) (f : Builder → Builder) : (s.updBld r f).now = s.now := rfl
@[simp] theorem State.updBld_clusterPins (r : RouteId) (f : Builder → Builder) : (s.updBld r f).clusterPins = s.clusterPins := rfl
@[simp] theorem State.updBld_longPins (r : RouteId) (f : Builder → Builder) : (s.updBld r f).longPins = s.longPins := rfl
@[simp] theorem State.updBld_clusterUp (r : RouteId) (f : Builder → Builder) : (s.updBld r f).clusterUp = s.clusterUp := rfl
@[simp] theorem State.updBld_longUp (r : RouteId) (f : Builder → Builder) : (s.updBld r f).longUp = s.longUp := rfl
@[simp] theorem State.updBld_passOut (r : RouteId) (f : Builder → Builder) : (s.updBld r f).passOut = s.passOut := rfl
@[simp] theorem State.updBld_passIn (r : RouteId) (f : Builder → Builder) : (s.updBld r f).passIn = s.passIn := rfl
@[simp] theorem State.updBld_outQ (r : RouteId) (f : Builder → Builder) : (s.updBld r f).outQ = s.outQ := rfl
@[simp] theorem State.updBld_clusterTx (r : RouteId) (f : Builder → Builder) : (s.updBld r f).clusterTx = s.clusterTx := rfl
@[simp] theorem State.updBld_clusterLast (r : RouteId) (f : Builder → Builder) : (s.updBld r f).clusterLast = s.clusterLast := rfl
@[simp] theorem State.updBld_longTx (r : RouteId) (f : Builder → Builder) : (s.updBld r f).longTx = s.longTx := rfl
@[simp] theorem State.updBld_arbLast (r : RouteId) (f : Builder → Builder) : (s.updBld r f).arbLast = s.arbLast := rfl
@[simp] theorem State.updBld_lanes (r : RouteId) (f : Builder → Builder) : (s.updBld r f).lanes = s.lanes := rfl
@[simp] theorem State.updBld_windows (r : RouteId) (f : Builder → Builder) : (s.updBld r f).windows = s.windows := rfl
@[simp] theorem State.updBld_pmap (r : RouteId) (f : Builder → Builder) : (s.updBld r f).pmap = s.pmap := rfl
@[simp] theorem State.updBld_faultRecord (r : RouteId) (f : Builder → Builder) : (s.updBld r f).faultRecord = s.faultRecord := rfl
@[simp] theorem State.updBld_bankA (r : RouteId) (f : Builder → Builder) : (s.updBld r f).bankA = s.bankA := rfl
@[simp] theorem State.updBld_bankB (r : RouteId) (f : Builder → Builder) : (s.updBld r f).bankB = s.bankB := rfl
@[simp] theorem State.updBld_active (r : RouteId) (f : Builder → Builder) : (s.updBld r f).active = s.active := rfl
@[simp] theorem State.updBld_generation (r : RouteId) (f : Builder → Builder) : (s.updBld r f).generation = s.generation := rfl
@[simp] theorem State.updBld_armed (r : RouteId) (f : Builder → Builder) : (s.updBld r f).armed = s.armed := rfl
@[simp] theorem State.updBld_records (r : RouteId) (f : Builder → Builder) : (s.updBld r f).records = s.records := rfl
@[simp] theorem State.updBld_keyIndex (r : RouteId) (f : Builder → Builder) : (s.updBld r f).keyIndex = s.keyIndex := rfl
@[simp] theorem State.updBld_dram (r : RouteId) (f : Builder → Builder) : (s.updBld r f).dram = s.dram := rfl
@[simp] theorem State.updBld_pool (r : RouteId) (f : Builder → Builder) : (s.updBld r f).pool = s.pool := rfl
@[simp] theorem State.updBld_descFree (r : RouteId) (f : Builder → Builder) : (s.updBld r f).descFree = s.descFree := rfl
@[simp] theorem State.updBld_lastTick (r : RouteId) (f : Builder → Builder) : (s.updBld r f).lastTick = s.lastTick := rfl
@[simp] theorem State.updBld_pacingNext (r : RouteId) (f : Builder → Builder) : (s.updBld r f).pacingNext = s.pacingNext := rfl
@[simp] theorem State.updBld_assemblies (r : RouteId) (f : Builder → Builder) : (s.updBld r f).assemblies = s.assemblies := rfl
@[simp] theorem State.updBld_deliveryQ (r : RouteId) (f : Builder → Builder) : (s.updBld r f).deliveryQ = s.deliveryQ := rfl
@[simp] theorem State.updBld_dlanes (r : RouteId) (f : Builder → Builder) : (s.updBld r f).dlanes = s.dlanes := rfl
@[simp] theorem State.updBld_parcels (r : RouteId) (f : Builder → Builder) : (s.updBld r f).parcels = s.parcels := rfl
@[simp] theorem State.updBld_cursor (r : RouteId) (f : Builder → Builder) : (s.updBld r f).cursor = s.cursor := rfl
@[simp] theorem State.updBld_latches (r : RouteId) (f : Builder → Builder) : (s.updBld r f).latches = s.latches := rfl
@[simp] theorem State.updBld_mask (r : RouteId) (f : Builder → Builder) : (s.updBld r f).mask = s.mask := rfl
@[simp] theorem State.updBld_counters (r : RouteId) (f : Builder → Builder) : (s.updBld r f).counters = s.counters := rfl
@[simp] theorem State.updBld_settings (r : RouteId) (f : Builder → Builder) : (s.updBld r f).settings = s.settings := rfl
@[simp] theorem State.updBld_freeUses (r : RouteId) (f : Builder → Builder) : (s.updBld r f).freeUses = s.freeUses := rfl
@[simp] theorem State.updBld_pending (r : RouteId) (f : Builder → Builder) : (s.updBld r f).pending = s.pending := rfl

/-! ## updInb -/

@[simp] theorem State.updInb_now (r : RouteId) (f : Inbound → Inbound) : (s.updInb r f).now = s.now := rfl
@[simp] theorem State.updInb_clusterPins (r : RouteId) (f : Inbound → Inbound) : (s.updInb r f).clusterPins = s.clusterPins := rfl
@[simp] theorem State.updInb_longPins (r : RouteId) (f : Inbound → Inbound) : (s.updInb r f).longPins = s.longPins := rfl
@[simp] theorem State.updInb_clusterUp (r : RouteId) (f : Inbound → Inbound) : (s.updInb r f).clusterUp = s.clusterUp := rfl
@[simp] theorem State.updInb_longUp (r : RouteId) (f : Inbound → Inbound) : (s.updInb r f).longUp = s.longUp := rfl
@[simp] theorem State.updInb_passOut (r : RouteId) (f : Inbound → Inbound) : (s.updInb r f).passOut = s.passOut := rfl
@[simp] theorem State.updInb_passIn (r : RouteId) (f : Inbound → Inbound) : (s.updInb r f).passIn = s.passIn := rfl
@[simp] theorem State.updInb_outQ (r : RouteId) (f : Inbound → Inbound) : (s.updInb r f).outQ = s.outQ := rfl
@[simp] theorem State.updInb_clusterTx (r : RouteId) (f : Inbound → Inbound) : (s.updInb r f).clusterTx = s.clusterTx := rfl
@[simp] theorem State.updInb_clusterLast (r : RouteId) (f : Inbound → Inbound) : (s.updInb r f).clusterLast = s.clusterLast := rfl
@[simp] theorem State.updInb_longTx (r : RouteId) (f : Inbound → Inbound) : (s.updInb r f).longTx = s.longTx := rfl
@[simp] theorem State.updInb_arbLast (r : RouteId) (f : Inbound → Inbound) : (s.updInb r f).arbLast = s.arbLast := rfl
@[simp] theorem State.updInb_lanes (r : RouteId) (f : Inbound → Inbound) : (s.updInb r f).lanes = s.lanes := rfl
@[simp] theorem State.updInb_windows (r : RouteId) (f : Inbound → Inbound) : (s.updInb r f).windows = s.windows := rfl
@[simp] theorem State.updInb_pmap (r : RouteId) (f : Inbound → Inbound) : (s.updInb r f).pmap = s.pmap := rfl
@[simp] theorem State.updInb_faultRecord (r : RouteId) (f : Inbound → Inbound) : (s.updInb r f).faultRecord = s.faultRecord := rfl
@[simp] theorem State.updInb_bankA (r : RouteId) (f : Inbound → Inbound) : (s.updInb r f).bankA = s.bankA := rfl
@[simp] theorem State.updInb_bankB (r : RouteId) (f : Inbound → Inbound) : (s.updInb r f).bankB = s.bankB := rfl
@[simp] theorem State.updInb_active (r : RouteId) (f : Inbound → Inbound) : (s.updInb r f).active = s.active := rfl
@[simp] theorem State.updInb_generation (r : RouteId) (f : Inbound → Inbound) : (s.updInb r f).generation = s.generation := rfl
@[simp] theorem State.updInb_armed (r : RouteId) (f : Inbound → Inbound) : (s.updInb r f).armed = s.armed := rfl
@[simp] theorem State.updInb_records (r : RouteId) (f : Inbound → Inbound) : (s.updInb r f).records = s.records := rfl
@[simp] theorem State.updInb_keyIndex (r : RouteId) (f : Inbound → Inbound) : (s.updInb r f).keyIndex = s.keyIndex := rfl
@[simp] theorem State.updInb_dram (r : RouteId) (f : Inbound → Inbound) : (s.updInb r f).dram = s.dram := rfl
@[simp] theorem State.updInb_pool (r : RouteId) (f : Inbound → Inbound) : (s.updInb r f).pool = s.pool := rfl
@[simp] theorem State.updInb_descFree (r : RouteId) (f : Inbound → Inbound) : (s.updInb r f).descFree = s.descFree := rfl
@[simp] theorem State.updInb_lastTick (r : RouteId) (f : Inbound → Inbound) : (s.updInb r f).lastTick = s.lastTick := rfl
@[simp] theorem State.updInb_pacingNext (r : RouteId) (f : Inbound → Inbound) : (s.updInb r f).pacingNext = s.pacingNext := rfl
@[simp] theorem State.updInb_assemblies (r : RouteId) (f : Inbound → Inbound) : (s.updInb r f).assemblies = s.assemblies := rfl
@[simp] theorem State.updInb_deliveryQ (r : RouteId) (f : Inbound → Inbound) : (s.updInb r f).deliveryQ = s.deliveryQ := rfl
@[simp] theorem State.updInb_dlanes (r : RouteId) (f : Inbound → Inbound) : (s.updInb r f).dlanes = s.dlanes := rfl
@[simp] theorem State.updInb_parcels (r : RouteId) (f : Inbound → Inbound) : (s.updInb r f).parcels = s.parcels := rfl
@[simp] theorem State.updInb_cursor (r : RouteId) (f : Inbound → Inbound) : (s.updInb r f).cursor = s.cursor := rfl
@[simp] theorem State.updInb_latches (r : RouteId) (f : Inbound → Inbound) : (s.updInb r f).latches = s.latches := rfl
@[simp] theorem State.updInb_mask (r : RouteId) (f : Inbound → Inbound) : (s.updInb r f).mask = s.mask := rfl
@[simp] theorem State.updInb_counters (r : RouteId) (f : Inbound → Inbound) : (s.updInb r f).counters = s.counters := rfl
@[simp] theorem State.updInb_settings (r : RouteId) (f : Inbound → Inbound) : (s.updInb r f).settings = s.settings := rfl
@[simp] theorem State.updInb_freeUses (r : RouteId) (f : Inbound → Inbound) : (s.updInb r f).freeUses = s.freeUses := rfl
@[simp] theorem State.updInb_pending (r : RouteId) (f : Inbound → Inbound) : (s.updInb r f).pending = s.pending := rfl

/-! ## setLane -/

@[simp] theorem State.setLane_now (l : LaneId) (x : Lane) : (s.setLane l x).now = s.now := rfl
@[simp] theorem State.setLane_clusterPins (l : LaneId) (x : Lane) : (s.setLane l x).clusterPins = s.clusterPins := rfl
@[simp] theorem State.setLane_longPins (l : LaneId) (x : Lane) : (s.setLane l x).longPins = s.longPins := rfl
@[simp] theorem State.setLane_clusterUp (l : LaneId) (x : Lane) : (s.setLane l x).clusterUp = s.clusterUp := rfl
@[simp] theorem State.setLane_longUp (l : LaneId) (x : Lane) : (s.setLane l x).longUp = s.longUp := rfl
@[simp] theorem State.setLane_passOut (l : LaneId) (x : Lane) : (s.setLane l x).passOut = s.passOut := rfl
@[simp] theorem State.setLane_passIn (l : LaneId) (x : Lane) : (s.setLane l x).passIn = s.passIn := rfl
@[simp] theorem State.setLane_outQ (l : LaneId) (x : Lane) : (s.setLane l x).outQ = s.outQ := rfl
@[simp] theorem State.setLane_clusterTx (l : LaneId) (x : Lane) : (s.setLane l x).clusterTx = s.clusterTx := rfl
@[simp] theorem State.setLane_clusterLast (l : LaneId) (x : Lane) : (s.setLane l x).clusterLast = s.clusterLast := rfl
@[simp] theorem State.setLane_longTx (l : LaneId) (x : Lane) : (s.setLane l x).longTx = s.longTx := rfl
@[simp] theorem State.setLane_arbLast (l : LaneId) (x : Lane) : (s.setLane l x).arbLast = s.arbLast := rfl
@[simp] theorem State.setLane_windows (l : LaneId) (x : Lane) : (s.setLane l x).windows = s.windows := rfl
@[simp] theorem State.setLane_pmap (l : LaneId) (x : Lane) : (s.setLane l x).pmap = s.pmap := rfl
@[simp] theorem State.setLane_faultRecord (l : LaneId) (x : Lane) : (s.setLane l x).faultRecord = s.faultRecord := rfl
@[simp] theorem State.setLane_bankA (l : LaneId) (x : Lane) : (s.setLane l x).bankA = s.bankA := rfl
@[simp] theorem State.setLane_bankB (l : LaneId) (x : Lane) : (s.setLane l x).bankB = s.bankB := rfl
@[simp] theorem State.setLane_active (l : LaneId) (x : Lane) : (s.setLane l x).active = s.active := rfl
@[simp] theorem State.setLane_generation (l : LaneId) (x : Lane) : (s.setLane l x).generation = s.generation := rfl
@[simp] theorem State.setLane_armed (l : LaneId) (x : Lane) : (s.setLane l x).armed = s.armed := rfl
@[simp] theorem State.setLane_records (l : LaneId) (x : Lane) : (s.setLane l x).records = s.records := rfl
@[simp] theorem State.setLane_keyIndex (l : LaneId) (x : Lane) : (s.setLane l x).keyIndex = s.keyIndex := rfl
@[simp] theorem State.setLane_dram (l : LaneId) (x : Lane) : (s.setLane l x).dram = s.dram := rfl
@[simp] theorem State.setLane_pool (l : LaneId) (x : Lane) : (s.setLane l x).pool = s.pool := rfl
@[simp] theorem State.setLane_descFree (l : LaneId) (x : Lane) : (s.setLane l x).descFree = s.descFree := rfl
@[simp] theorem State.setLane_routes (l : LaneId) (x : Lane) : (s.setLane l x).routes = s.routes := rfl
@[simp] theorem State.setLane_lastTick (l : LaneId) (x : Lane) : (s.setLane l x).lastTick = s.lastTick := rfl
@[simp] theorem State.setLane_pacingNext (l : LaneId) (x : Lane) : (s.setLane l x).pacingNext = s.pacingNext := rfl
@[simp] theorem State.setLane_assemblies (l : LaneId) (x : Lane) : (s.setLane l x).assemblies = s.assemblies := rfl
@[simp] theorem State.setLane_deliveryQ (l : LaneId) (x : Lane) : (s.setLane l x).deliveryQ = s.deliveryQ := rfl
@[simp] theorem State.setLane_dlanes (l : LaneId) (x : Lane) : (s.setLane l x).dlanes = s.dlanes := rfl
@[simp] theorem State.setLane_parcels (l : LaneId) (x : Lane) : (s.setLane l x).parcels = s.parcels := rfl
@[simp] theorem State.setLane_cursor (l : LaneId) (x : Lane) : (s.setLane l x).cursor = s.cursor := rfl
@[simp] theorem State.setLane_latches (l : LaneId) (x : Lane) : (s.setLane l x).latches = s.latches := rfl
@[simp] theorem State.setLane_mask (l : LaneId) (x : Lane) : (s.setLane l x).mask = s.mask := rfl
@[simp] theorem State.setLane_counters (l : LaneId) (x : Lane) : (s.setLane l x).counters = s.counters := rfl
@[simp] theorem State.setLane_settings (l : LaneId) (x : Lane) : (s.setLane l x).settings = s.settings := rfl
@[simp] theorem State.setLane_freeUses (l : LaneId) (x : Lane) : (s.setLane l x).freeUses = s.freeUses := rfl
@[simp] theorem State.setLane_pending (l : LaneId) (x : Lane) : (s.setLane l x).pending = s.pending := rfl

/-! ## setDLane -/

@[simp] theorem State.setDLane_now (l : DeliveryLaneId) (x : DLane) : (s.setDLane l x).now = s.now := rfl
@[simp] theorem State.setDLane_clusterPins (l : DeliveryLaneId) (x : DLane) : (s.setDLane l x).clusterPins = s.clusterPins := rfl
@[simp] theorem State.setDLane_longPins (l : DeliveryLaneId) (x : DLane) : (s.setDLane l x).longPins = s.longPins := rfl
@[simp] theorem State.setDLane_clusterUp (l : DeliveryLaneId) (x : DLane) : (s.setDLane l x).clusterUp = s.clusterUp := rfl
@[simp] theorem State.setDLane_longUp (l : DeliveryLaneId) (x : DLane) : (s.setDLane l x).longUp = s.longUp := rfl
@[simp] theorem State.setDLane_passOut (l : DeliveryLaneId) (x : DLane) : (s.setDLane l x).passOut = s.passOut := rfl
@[simp] theorem State.setDLane_passIn (l : DeliveryLaneId) (x : DLane) : (s.setDLane l x).passIn = s.passIn := rfl
@[simp] theorem State.setDLane_outQ (l : DeliveryLaneId) (x : DLane) : (s.setDLane l x).outQ = s.outQ := rfl
@[simp] theorem State.setDLane_clusterTx (l : DeliveryLaneId) (x : DLane) : (s.setDLane l x).clusterTx = s.clusterTx := rfl
@[simp] theorem State.setDLane_clusterLast (l : DeliveryLaneId) (x : DLane) : (s.setDLane l x).clusterLast = s.clusterLast := rfl
@[simp] theorem State.setDLane_longTx (l : DeliveryLaneId) (x : DLane) : (s.setDLane l x).longTx = s.longTx := rfl
@[simp] theorem State.setDLane_arbLast (l : DeliveryLaneId) (x : DLane) : (s.setDLane l x).arbLast = s.arbLast := rfl
@[simp] theorem State.setDLane_lanes (l : DeliveryLaneId) (x : DLane) : (s.setDLane l x).lanes = s.lanes := rfl
@[simp] theorem State.setDLane_windows (l : DeliveryLaneId) (x : DLane) : (s.setDLane l x).windows = s.windows := rfl
@[simp] theorem State.setDLane_pmap (l : DeliveryLaneId) (x : DLane) : (s.setDLane l x).pmap = s.pmap := rfl
@[simp] theorem State.setDLane_faultRecord (l : DeliveryLaneId) (x : DLane) : (s.setDLane l x).faultRecord = s.faultRecord := rfl
@[simp] theorem State.setDLane_bankA (l : DeliveryLaneId) (x : DLane) : (s.setDLane l x).bankA = s.bankA := rfl
@[simp] theorem State.setDLane_bankB (l : DeliveryLaneId) (x : DLane) : (s.setDLane l x).bankB = s.bankB := rfl
@[simp] theorem State.setDLane_active (l : DeliveryLaneId) (x : DLane) : (s.setDLane l x).active = s.active := rfl
@[simp] theorem State.setDLane_generation (l : DeliveryLaneId) (x : DLane) : (s.setDLane l x).generation = s.generation := rfl
@[simp] theorem State.setDLane_armed (l : DeliveryLaneId) (x : DLane) : (s.setDLane l x).armed = s.armed := rfl
@[simp] theorem State.setDLane_records (l : DeliveryLaneId) (x : DLane) : (s.setDLane l x).records = s.records := rfl
@[simp] theorem State.setDLane_keyIndex (l : DeliveryLaneId) (x : DLane) : (s.setDLane l x).keyIndex = s.keyIndex := rfl
@[simp] theorem State.setDLane_dram (l : DeliveryLaneId) (x : DLane) : (s.setDLane l x).dram = s.dram := rfl
@[simp] theorem State.setDLane_pool (l : DeliveryLaneId) (x : DLane) : (s.setDLane l x).pool = s.pool := rfl
@[simp] theorem State.setDLane_descFree (l : DeliveryLaneId) (x : DLane) : (s.setDLane l x).descFree = s.descFree := rfl
@[simp] theorem State.setDLane_routes (l : DeliveryLaneId) (x : DLane) : (s.setDLane l x).routes = s.routes := rfl
@[simp] theorem State.setDLane_lastTick (l : DeliveryLaneId) (x : DLane) : (s.setDLane l x).lastTick = s.lastTick := rfl
@[simp] theorem State.setDLane_pacingNext (l : DeliveryLaneId) (x : DLane) : (s.setDLane l x).pacingNext = s.pacingNext := rfl
@[simp] theorem State.setDLane_assemblies (l : DeliveryLaneId) (x : DLane) : (s.setDLane l x).assemblies = s.assemblies := rfl
@[simp] theorem State.setDLane_deliveryQ (l : DeliveryLaneId) (x : DLane) : (s.setDLane l x).deliveryQ = s.deliveryQ := rfl
@[simp] theorem State.setDLane_parcels (l : DeliveryLaneId) (x : DLane) : (s.setDLane l x).parcels = s.parcels := rfl
@[simp] theorem State.setDLane_cursor (l : DeliveryLaneId) (x : DLane) : (s.setDLane l x).cursor = s.cursor := rfl
@[simp] theorem State.setDLane_latches (l : DeliveryLaneId) (x : DLane) : (s.setDLane l x).latches = s.latches := rfl
@[simp] theorem State.setDLane_mask (l : DeliveryLaneId) (x : DLane) : (s.setDLane l x).mask = s.mask := rfl
@[simp] theorem State.setDLane_counters (l : DeliveryLaneId) (x : DLane) : (s.setDLane l x).counters = s.counters := rfl
@[simp] theorem State.setDLane_settings (l : DeliveryLaneId) (x : DLane) : (s.setDLane l x).settings = s.settings := rfl
@[simp] theorem State.setDLane_freeUses (l : DeliveryLaneId) (x : DLane) : (s.setDLane l x).freeUses = s.freeUses := rfl
@[simp] theorem State.setDLane_pending (l : DeliveryLaneId) (x : DLane) : (s.setDLane l x).pending = s.pending := rfl

/-! ## latch -/

@[simp] theorem State.latch_now (c : EventClass) : (s.latch c).now = s.now := rfl
@[simp] theorem State.latch_clusterPins (c : EventClass) : (s.latch c).clusterPins = s.clusterPins := rfl
@[simp] theorem State.latch_longPins (c : EventClass) : (s.latch c).longPins = s.longPins := rfl
@[simp] theorem State.latch_clusterUp (c : EventClass) : (s.latch c).clusterUp = s.clusterUp := rfl
@[simp] theorem State.latch_longUp (c : EventClass) : (s.latch c).longUp = s.longUp := rfl
@[simp] theorem State.latch_passOut (c : EventClass) : (s.latch c).passOut = s.passOut := rfl
@[simp] theorem State.latch_passIn (c : EventClass) : (s.latch c).passIn = s.passIn := rfl
@[simp] theorem State.latch_outQ (c : EventClass) : (s.latch c).outQ = s.outQ := rfl
@[simp] theorem State.latch_clusterTx (c : EventClass) : (s.latch c).clusterTx = s.clusterTx := rfl
@[simp] theorem State.latch_clusterLast (c : EventClass) : (s.latch c).clusterLast = s.clusterLast := rfl
@[simp] theorem State.latch_longTx (c : EventClass) : (s.latch c).longTx = s.longTx := rfl
@[simp] theorem State.latch_arbLast (c : EventClass) : (s.latch c).arbLast = s.arbLast := rfl
@[simp] theorem State.latch_lanes (c : EventClass) : (s.latch c).lanes = s.lanes := rfl
@[simp] theorem State.latch_windows (c : EventClass) : (s.latch c).windows = s.windows := rfl
@[simp] theorem State.latch_pmap (c : EventClass) : (s.latch c).pmap = s.pmap := rfl
@[simp] theorem State.latch_faultRecord (c : EventClass) : (s.latch c).faultRecord = s.faultRecord := rfl
@[simp] theorem State.latch_bankA (c : EventClass) : (s.latch c).bankA = s.bankA := rfl
@[simp] theorem State.latch_bankB (c : EventClass) : (s.latch c).bankB = s.bankB := rfl
@[simp] theorem State.latch_active (c : EventClass) : (s.latch c).active = s.active := rfl
@[simp] theorem State.latch_generation (c : EventClass) : (s.latch c).generation = s.generation := rfl
@[simp] theorem State.latch_armed (c : EventClass) : (s.latch c).armed = s.armed := rfl
@[simp] theorem State.latch_records (c : EventClass) : (s.latch c).records = s.records := rfl
@[simp] theorem State.latch_keyIndex (c : EventClass) : (s.latch c).keyIndex = s.keyIndex := rfl
@[simp] theorem State.latch_dram (c : EventClass) : (s.latch c).dram = s.dram := rfl
@[simp] theorem State.latch_pool (c : EventClass) : (s.latch c).pool = s.pool := rfl
@[simp] theorem State.latch_descFree (c : EventClass) : (s.latch c).descFree = s.descFree := rfl
@[simp] theorem State.latch_routes (c : EventClass) : (s.latch c).routes = s.routes := rfl
@[simp] theorem State.latch_lastTick (c : EventClass) : (s.latch c).lastTick = s.lastTick := rfl
@[simp] theorem State.latch_pacingNext (c : EventClass) : (s.latch c).pacingNext = s.pacingNext := rfl
@[simp] theorem State.latch_assemblies (c : EventClass) : (s.latch c).assemblies = s.assemblies := rfl
@[simp] theorem State.latch_deliveryQ (c : EventClass) : (s.latch c).deliveryQ = s.deliveryQ := rfl
@[simp] theorem State.latch_dlanes (c : EventClass) : (s.latch c).dlanes = s.dlanes := rfl
@[simp] theorem State.latch_parcels (c : EventClass) : (s.latch c).parcels = s.parcels := rfl
@[simp] theorem State.latch_cursor (c : EventClass) : (s.latch c).cursor = s.cursor := rfl
@[simp] theorem State.latch_mask (c : EventClass) : (s.latch c).mask = s.mask := rfl
@[simp] theorem State.latch_counters (c : EventClass) : (s.latch c).counters = s.counters := rfl
@[simp] theorem State.latch_settings (c : EventClass) : (s.latch c).settings = s.settings := rfl
@[simp] theorem State.latch_freeUses (c : EventClass) : (s.latch c).freeUses = s.freeUses := rfl
@[simp] theorem State.latch_pending (c : EventClass) : (s.latch c).pending = s.pending := rfl

/-! ## countBy -/

@[simp] theorem State.countBy_now (n : Nat) (c : Counter) : (s.countBy n c).now = s.now := rfl
@[simp] theorem State.countBy_clusterPins (n : Nat) (c : Counter) : (s.countBy n c).clusterPins = s.clusterPins := rfl
@[simp] theorem State.countBy_longPins (n : Nat) (c : Counter) : (s.countBy n c).longPins = s.longPins := rfl
@[simp] theorem State.countBy_clusterUp (n : Nat) (c : Counter) : (s.countBy n c).clusterUp = s.clusterUp := rfl
@[simp] theorem State.countBy_longUp (n : Nat) (c : Counter) : (s.countBy n c).longUp = s.longUp := rfl
@[simp] theorem State.countBy_passOut (n : Nat) (c : Counter) : (s.countBy n c).passOut = s.passOut := rfl
@[simp] theorem State.countBy_passIn (n : Nat) (c : Counter) : (s.countBy n c).passIn = s.passIn := rfl
@[simp] theorem State.countBy_outQ (n : Nat) (c : Counter) : (s.countBy n c).outQ = s.outQ := rfl
@[simp] theorem State.countBy_clusterTx (n : Nat) (c : Counter) : (s.countBy n c).clusterTx = s.clusterTx := rfl
@[simp] theorem State.countBy_clusterLast (n : Nat) (c : Counter) : (s.countBy n c).clusterLast = s.clusterLast := rfl
@[simp] theorem State.countBy_longTx (n : Nat) (c : Counter) : (s.countBy n c).longTx = s.longTx := rfl
@[simp] theorem State.countBy_arbLast (n : Nat) (c : Counter) : (s.countBy n c).arbLast = s.arbLast := rfl
@[simp] theorem State.countBy_lanes (n : Nat) (c : Counter) : (s.countBy n c).lanes = s.lanes := rfl
@[simp] theorem State.countBy_windows (n : Nat) (c : Counter) : (s.countBy n c).windows = s.windows := rfl
@[simp] theorem State.countBy_pmap (n : Nat) (c : Counter) : (s.countBy n c).pmap = s.pmap := rfl
@[simp] theorem State.countBy_faultRecord (n : Nat) (c : Counter) : (s.countBy n c).faultRecord = s.faultRecord := rfl
@[simp] theorem State.countBy_bankA (n : Nat) (c : Counter) : (s.countBy n c).bankA = s.bankA := rfl
@[simp] theorem State.countBy_bankB (n : Nat) (c : Counter) : (s.countBy n c).bankB = s.bankB := rfl
@[simp] theorem State.countBy_active (n : Nat) (c : Counter) : (s.countBy n c).active = s.active := rfl
@[simp] theorem State.countBy_generation (n : Nat) (c : Counter) : (s.countBy n c).generation = s.generation := rfl
@[simp] theorem State.countBy_armed (n : Nat) (c : Counter) : (s.countBy n c).armed = s.armed := rfl
@[simp] theorem State.countBy_records (n : Nat) (c : Counter) : (s.countBy n c).records = s.records := rfl
@[simp] theorem State.countBy_keyIndex (n : Nat) (c : Counter) : (s.countBy n c).keyIndex = s.keyIndex := rfl
@[simp] theorem State.countBy_dram (n : Nat) (c : Counter) : (s.countBy n c).dram = s.dram := rfl
@[simp] theorem State.countBy_pool (n : Nat) (c : Counter) : (s.countBy n c).pool = s.pool := rfl
@[simp] theorem State.countBy_descFree (n : Nat) (c : Counter) : (s.countBy n c).descFree = s.descFree := rfl
@[simp] theorem State.countBy_routes (n : Nat) (c : Counter) : (s.countBy n c).routes = s.routes := rfl
@[simp] theorem State.countBy_lastTick (n : Nat) (c : Counter) : (s.countBy n c).lastTick = s.lastTick := rfl
@[simp] theorem State.countBy_pacingNext (n : Nat) (c : Counter) : (s.countBy n c).pacingNext = s.pacingNext := rfl
@[simp] theorem State.countBy_assemblies (n : Nat) (c : Counter) : (s.countBy n c).assemblies = s.assemblies := rfl
@[simp] theorem State.countBy_deliveryQ (n : Nat) (c : Counter) : (s.countBy n c).deliveryQ = s.deliveryQ := rfl
@[simp] theorem State.countBy_dlanes (n : Nat) (c : Counter) : (s.countBy n c).dlanes = s.dlanes := rfl
@[simp] theorem State.countBy_parcels (n : Nat) (c : Counter) : (s.countBy n c).parcels = s.parcels := rfl
@[simp] theorem State.countBy_cursor (n : Nat) (c : Counter) : (s.countBy n c).cursor = s.cursor := rfl
@[simp] theorem State.countBy_latches (n : Nat) (c : Counter) : (s.countBy n c).latches = s.latches := rfl
@[simp] theorem State.countBy_mask (n : Nat) (c : Counter) : (s.countBy n c).mask = s.mask := rfl
@[simp] theorem State.countBy_settings (n : Nat) (c : Counter) : (s.countBy n c).settings = s.settings := rfl
@[simp] theorem State.countBy_freeUses (n : Nat) (c : Counter) : (s.countBy n c).freeUses = s.freeUses := rfl
@[simp] theorem State.countBy_pending (n : Nat) (c : Counter) : (s.countBy n c).pending = s.pending := rfl

/-! ## count -/

@[simp] theorem State.count_now (c : Counter) : (s.count c).now = s.now := rfl
@[simp] theorem State.count_clusterPins (c : Counter) : (s.count c).clusterPins = s.clusterPins := rfl
@[simp] theorem State.count_longPins (c : Counter) : (s.count c).longPins = s.longPins := rfl
@[simp] theorem State.count_clusterUp (c : Counter) : (s.count c).clusterUp = s.clusterUp := rfl
@[simp] theorem State.count_longUp (c : Counter) : (s.count c).longUp = s.longUp := rfl
@[simp] theorem State.count_passOut (c : Counter) : (s.count c).passOut = s.passOut := rfl
@[simp] theorem State.count_passIn (c : Counter) : (s.count c).passIn = s.passIn := rfl
@[simp] theorem State.count_outQ (c : Counter) : (s.count c).outQ = s.outQ := rfl
@[simp] theorem State.count_clusterTx (c : Counter) : (s.count c).clusterTx = s.clusterTx := rfl
@[simp] theorem State.count_clusterLast (c : Counter) : (s.count c).clusterLast = s.clusterLast := rfl
@[simp] theorem State.count_longTx (c : Counter) : (s.count c).longTx = s.longTx := rfl
@[simp] theorem State.count_arbLast (c : Counter) : (s.count c).arbLast = s.arbLast := rfl
@[simp] theorem State.count_lanes (c : Counter) : (s.count c).lanes = s.lanes := rfl
@[simp] theorem State.count_windows (c : Counter) : (s.count c).windows = s.windows := rfl
@[simp] theorem State.count_pmap (c : Counter) : (s.count c).pmap = s.pmap := rfl
@[simp] theorem State.count_faultRecord (c : Counter) : (s.count c).faultRecord = s.faultRecord := rfl
@[simp] theorem State.count_bankA (c : Counter) : (s.count c).bankA = s.bankA := rfl
@[simp] theorem State.count_bankB (c : Counter) : (s.count c).bankB = s.bankB := rfl
@[simp] theorem State.count_active (c : Counter) : (s.count c).active = s.active := rfl
@[simp] theorem State.count_generation (c : Counter) : (s.count c).generation = s.generation := rfl
@[simp] theorem State.count_armed (c : Counter) : (s.count c).armed = s.armed := rfl
@[simp] theorem State.count_records (c : Counter) : (s.count c).records = s.records := rfl
@[simp] theorem State.count_keyIndex (c : Counter) : (s.count c).keyIndex = s.keyIndex := rfl
@[simp] theorem State.count_dram (c : Counter) : (s.count c).dram = s.dram := rfl
@[simp] theorem State.count_pool (c : Counter) : (s.count c).pool = s.pool := rfl
@[simp] theorem State.count_descFree (c : Counter) : (s.count c).descFree = s.descFree := rfl
@[simp] theorem State.count_routes (c : Counter) : (s.count c).routes = s.routes := rfl
@[simp] theorem State.count_lastTick (c : Counter) : (s.count c).lastTick = s.lastTick := rfl
@[simp] theorem State.count_pacingNext (c : Counter) : (s.count c).pacingNext = s.pacingNext := rfl
@[simp] theorem State.count_assemblies (c : Counter) : (s.count c).assemblies = s.assemblies := rfl
@[simp] theorem State.count_deliveryQ (c : Counter) : (s.count c).deliveryQ = s.deliveryQ := rfl
@[simp] theorem State.count_dlanes (c : Counter) : (s.count c).dlanes = s.dlanes := rfl
@[simp] theorem State.count_parcels (c : Counter) : (s.count c).parcels = s.parcels := rfl
@[simp] theorem State.count_cursor (c : Counter) : (s.count c).cursor = s.cursor := rfl
@[simp] theorem State.count_latches (c : Counter) : (s.count c).latches = s.latches := rfl
@[simp] theorem State.count_mask (c : Counter) : (s.count c).mask = s.mask := rfl
@[simp] theorem State.count_settings (c : Counter) : (s.count c).settings = s.settings := rfl
@[simp] theorem State.count_freeUses (c : Counter) : (s.count c).freeUses = s.freeUses := rfl
@[simp] theorem State.count_pending (c : Counter) : (s.count c).pending = s.pending := rfl

/-! ## countRoute -/

@[simp] theorem State.countRoute_now (r : RouteId) (c : RouteCounter) : (s.countRoute r c).now = s.now := rfl
@[simp] theorem State.countRoute_clusterPins (r : RouteId) (c : RouteCounter) : (s.countRoute r c).clusterPins = s.clusterPins := rfl
@[simp] theorem State.countRoute_longPins (r : RouteId) (c : RouteCounter) : (s.countRoute r c).longPins = s.longPins := rfl
@[simp] theorem State.countRoute_clusterUp (r : RouteId) (c : RouteCounter) : (s.countRoute r c).clusterUp = s.clusterUp := rfl
@[simp] theorem State.countRoute_longUp (r : RouteId) (c : RouteCounter) : (s.countRoute r c).longUp = s.longUp := rfl
@[simp] theorem State.countRoute_passOut (r : RouteId) (c : RouteCounter) : (s.countRoute r c).passOut = s.passOut := rfl
@[simp] theorem State.countRoute_passIn (r : RouteId) (c : RouteCounter) : (s.countRoute r c).passIn = s.passIn := rfl
@[simp] theorem State.countRoute_outQ (r : RouteId) (c : RouteCounter) : (s.countRoute r c).outQ = s.outQ := rfl
@[simp] theorem State.countRoute_clusterTx (r : RouteId) (c : RouteCounter) : (s.countRoute r c).clusterTx = s.clusterTx := rfl
@[simp] theorem State.countRoute_clusterLast (r : RouteId) (c : RouteCounter) : (s.countRoute r c).clusterLast = s.clusterLast := rfl
@[simp] theorem State.countRoute_longTx (r : RouteId) (c : RouteCounter) : (s.countRoute r c).longTx = s.longTx := rfl
@[simp] theorem State.countRoute_arbLast (r : RouteId) (c : RouteCounter) : (s.countRoute r c).arbLast = s.arbLast := rfl
@[simp] theorem State.countRoute_lanes (r : RouteId) (c : RouteCounter) : (s.countRoute r c).lanes = s.lanes := rfl
@[simp] theorem State.countRoute_windows (r : RouteId) (c : RouteCounter) : (s.countRoute r c).windows = s.windows := rfl
@[simp] theorem State.countRoute_pmap (r : RouteId) (c : RouteCounter) : (s.countRoute r c).pmap = s.pmap := rfl
@[simp] theorem State.countRoute_faultRecord (r : RouteId) (c : RouteCounter) : (s.countRoute r c).faultRecord = s.faultRecord := rfl
@[simp] theorem State.countRoute_bankA (r : RouteId) (c : RouteCounter) : (s.countRoute r c).bankA = s.bankA := rfl
@[simp] theorem State.countRoute_bankB (r : RouteId) (c : RouteCounter) : (s.countRoute r c).bankB = s.bankB := rfl
@[simp] theorem State.countRoute_active (r : RouteId) (c : RouteCounter) : (s.countRoute r c).active = s.active := rfl
@[simp] theorem State.countRoute_generation (r : RouteId) (c : RouteCounter) : (s.countRoute r c).generation = s.generation := rfl
@[simp] theorem State.countRoute_armed (r : RouteId) (c : RouteCounter) : (s.countRoute r c).armed = s.armed := rfl
@[simp] theorem State.countRoute_records (r : RouteId) (c : RouteCounter) : (s.countRoute r c).records = s.records := rfl
@[simp] theorem State.countRoute_keyIndex (r : RouteId) (c : RouteCounter) : (s.countRoute r c).keyIndex = s.keyIndex := rfl
@[simp] theorem State.countRoute_dram (r : RouteId) (c : RouteCounter) : (s.countRoute r c).dram = s.dram := rfl
@[simp] theorem State.countRoute_pool (r : RouteId) (c : RouteCounter) : (s.countRoute r c).pool = s.pool := rfl
@[simp] theorem State.countRoute_descFree (r : RouteId) (c : RouteCounter) : (s.countRoute r c).descFree = s.descFree := rfl
@[simp] theorem State.countRoute_routes (r : RouteId) (c : RouteCounter) : (s.countRoute r c).routes = s.routes := rfl
@[simp] theorem State.countRoute_lastTick (r : RouteId) (c : RouteCounter) : (s.countRoute r c).lastTick = s.lastTick := rfl
@[simp] theorem State.countRoute_pacingNext (r : RouteId) (c : RouteCounter) : (s.countRoute r c).pacingNext = s.pacingNext := rfl
@[simp] theorem State.countRoute_assemblies (r : RouteId) (c : RouteCounter) : (s.countRoute r c).assemblies = s.assemblies := rfl
@[simp] theorem State.countRoute_deliveryQ (r : RouteId) (c : RouteCounter) : (s.countRoute r c).deliveryQ = s.deliveryQ := rfl
@[simp] theorem State.countRoute_dlanes (r : RouteId) (c : RouteCounter) : (s.countRoute r c).dlanes = s.dlanes := rfl
@[simp] theorem State.countRoute_parcels (r : RouteId) (c : RouteCounter) : (s.countRoute r c).parcels = s.parcels := rfl
@[simp] theorem State.countRoute_cursor (r : RouteId) (c : RouteCounter) : (s.countRoute r c).cursor = s.cursor := rfl
@[simp] theorem State.countRoute_latches (r : RouteId) (c : RouteCounter) : (s.countRoute r c).latches = s.latches := rfl
@[simp] theorem State.countRoute_mask (r : RouteId) (c : RouteCounter) : (s.countRoute r c).mask = s.mask := rfl
@[simp] theorem State.countRoute_settings (r : RouteId) (c : RouteCounter) : (s.countRoute r c).settings = s.settings := rfl
@[simp] theorem State.countRoute_freeUses (r : RouteId) (c : RouteCounter) : (s.countRoute r c).freeUses = s.freeUses := rfl
@[simp] theorem State.countRoute_pending (r : RouteId) (c : RouteCounter) : (s.countRoute r c).pending = s.pending := rfl

/-! ## setRecord -/

@[simp] theorem State.setRecord_now (n : Nat) (x : Record) : (s.setRecord n x).now = s.now := rfl
@[simp] theorem State.setRecord_clusterPins (n : Nat) (x : Record) : (s.setRecord n x).clusterPins = s.clusterPins := rfl
@[simp] theorem State.setRecord_longPins (n : Nat) (x : Record) : (s.setRecord n x).longPins = s.longPins := rfl
@[simp] theorem State.setRecord_clusterUp (n : Nat) (x : Record) : (s.setRecord n x).clusterUp = s.clusterUp := rfl
@[simp] theorem State.setRecord_longUp (n : Nat) (x : Record) : (s.setRecord n x).longUp = s.longUp := rfl
@[simp] theorem State.setRecord_passOut (n : Nat) (x : Record) : (s.setRecord n x).passOut = s.passOut := rfl
@[simp] theorem State.setRecord_passIn (n : Nat) (x : Record) : (s.setRecord n x).passIn = s.passIn := rfl
@[simp] theorem State.setRecord_outQ (n : Nat) (x : Record) : (s.setRecord n x).outQ = s.outQ := rfl
@[simp] theorem State.setRecord_clusterTx (n : Nat) (x : Record) : (s.setRecord n x).clusterTx = s.clusterTx := rfl
@[simp] theorem State.setRecord_clusterLast (n : Nat) (x : Record) : (s.setRecord n x).clusterLast = s.clusterLast := rfl
@[simp] theorem State.setRecord_longTx (n : Nat) (x : Record) : (s.setRecord n x).longTx = s.longTx := rfl
@[simp] theorem State.setRecord_arbLast (n : Nat) (x : Record) : (s.setRecord n x).arbLast = s.arbLast := rfl
@[simp] theorem State.setRecord_lanes (n : Nat) (x : Record) : (s.setRecord n x).lanes = s.lanes := rfl
@[simp] theorem State.setRecord_windows (n : Nat) (x : Record) : (s.setRecord n x).windows = s.windows := rfl
@[simp] theorem State.setRecord_pmap (n : Nat) (x : Record) : (s.setRecord n x).pmap = s.pmap := rfl
@[simp] theorem State.setRecord_faultRecord (n : Nat) (x : Record) : (s.setRecord n x).faultRecord = s.faultRecord := rfl
@[simp] theorem State.setRecord_bankA (n : Nat) (x : Record) : (s.setRecord n x).bankA = s.bankA := rfl
@[simp] theorem State.setRecord_bankB (n : Nat) (x : Record) : (s.setRecord n x).bankB = s.bankB := rfl
@[simp] theorem State.setRecord_active (n : Nat) (x : Record) : (s.setRecord n x).active = s.active := rfl
@[simp] theorem State.setRecord_generation (n : Nat) (x : Record) : (s.setRecord n x).generation = s.generation := rfl
@[simp] theorem State.setRecord_armed (n : Nat) (x : Record) : (s.setRecord n x).armed = s.armed := rfl
@[simp] theorem State.setRecord_keyIndex (n : Nat) (x : Record) : (s.setRecord n x).keyIndex = s.keyIndex := rfl
@[simp] theorem State.setRecord_dram (n : Nat) (x : Record) : (s.setRecord n x).dram = s.dram := rfl
@[simp] theorem State.setRecord_pool (n : Nat) (x : Record) : (s.setRecord n x).pool = s.pool := rfl
@[simp] theorem State.setRecord_descFree (n : Nat) (x : Record) : (s.setRecord n x).descFree = s.descFree := rfl
@[simp] theorem State.setRecord_routes (n : Nat) (x : Record) : (s.setRecord n x).routes = s.routes := rfl
@[simp] theorem State.setRecord_lastTick (n : Nat) (x : Record) : (s.setRecord n x).lastTick = s.lastTick := rfl
@[simp] theorem State.setRecord_pacingNext (n : Nat) (x : Record) : (s.setRecord n x).pacingNext = s.pacingNext := rfl
@[simp] theorem State.setRecord_assemblies (n : Nat) (x : Record) : (s.setRecord n x).assemblies = s.assemblies := rfl
@[simp] theorem State.setRecord_deliveryQ (n : Nat) (x : Record) : (s.setRecord n x).deliveryQ = s.deliveryQ := rfl
@[simp] theorem State.setRecord_dlanes (n : Nat) (x : Record) : (s.setRecord n x).dlanes = s.dlanes := rfl
@[simp] theorem State.setRecord_parcels (n : Nat) (x : Record) : (s.setRecord n x).parcels = s.parcels := rfl
@[simp] theorem State.setRecord_cursor (n : Nat) (x : Record) : (s.setRecord n x).cursor = s.cursor := rfl
@[simp] theorem State.setRecord_latches (n : Nat) (x : Record) : (s.setRecord n x).latches = s.latches := rfl
@[simp] theorem State.setRecord_mask (n : Nat) (x : Record) : (s.setRecord n x).mask = s.mask := rfl
@[simp] theorem State.setRecord_counters (n : Nat) (x : Record) : (s.setRecord n x).counters = s.counters := rfl
@[simp] theorem State.setRecord_settings (n : Nat) (x : Record) : (s.setRecord n x).settings = s.settings := rfl
@[simp] theorem State.setRecord_freeUses (n : Nat) (x : Record) : (s.setRecord n x).freeUses = s.freeUses := rfl
@[simp] theorem State.setRecord_pending (n : Nat) (x : Record) : (s.setRecord n x).pending = s.pending := rfl

/-! ## setKeyList -/

@[simp] theorem State.setKeyList_now (key : Digest) (xs : List Nat) : (s.setKeyList key xs).now = s.now := rfl
@[simp] theorem State.setKeyList_clusterPins (key : Digest) (xs : List Nat) : (s.setKeyList key xs).clusterPins = s.clusterPins := rfl
@[simp] theorem State.setKeyList_longPins (key : Digest) (xs : List Nat) : (s.setKeyList key xs).longPins = s.longPins := rfl
@[simp] theorem State.setKeyList_clusterUp (key : Digest) (xs : List Nat) : (s.setKeyList key xs).clusterUp = s.clusterUp := rfl
@[simp] theorem State.setKeyList_longUp (key : Digest) (xs : List Nat) : (s.setKeyList key xs).longUp = s.longUp := rfl
@[simp] theorem State.setKeyList_passOut (key : Digest) (xs : List Nat) : (s.setKeyList key xs).passOut = s.passOut := rfl
@[simp] theorem State.setKeyList_passIn (key : Digest) (xs : List Nat) : (s.setKeyList key xs).passIn = s.passIn := rfl
@[simp] theorem State.setKeyList_outQ (key : Digest) (xs : List Nat) : (s.setKeyList key xs).outQ = s.outQ := rfl
@[simp] theorem State.setKeyList_clusterTx (key : Digest) (xs : List Nat) : (s.setKeyList key xs).clusterTx = s.clusterTx := rfl
@[simp] theorem State.setKeyList_clusterLast (key : Digest) (xs : List Nat) : (s.setKeyList key xs).clusterLast = s.clusterLast := rfl
@[simp] theorem State.setKeyList_longTx (key : Digest) (xs : List Nat) : (s.setKeyList key xs).longTx = s.longTx := rfl
@[simp] theorem State.setKeyList_arbLast (key : Digest) (xs : List Nat) : (s.setKeyList key xs).arbLast = s.arbLast := rfl
@[simp] theorem State.setKeyList_lanes (key : Digest) (xs : List Nat) : (s.setKeyList key xs).lanes = s.lanes := rfl
@[simp] theorem State.setKeyList_windows (key : Digest) (xs : List Nat) : (s.setKeyList key xs).windows = s.windows := rfl
@[simp] theorem State.setKeyList_pmap (key : Digest) (xs : List Nat) : (s.setKeyList key xs).pmap = s.pmap := rfl
@[simp] theorem State.setKeyList_faultRecord (key : Digest) (xs : List Nat) : (s.setKeyList key xs).faultRecord = s.faultRecord := rfl
@[simp] theorem State.setKeyList_bankA (key : Digest) (xs : List Nat) : (s.setKeyList key xs).bankA = s.bankA := rfl
@[simp] theorem State.setKeyList_bankB (key : Digest) (xs : List Nat) : (s.setKeyList key xs).bankB = s.bankB := rfl
@[simp] theorem State.setKeyList_active (key : Digest) (xs : List Nat) : (s.setKeyList key xs).active = s.active := rfl
@[simp] theorem State.setKeyList_generation (key : Digest) (xs : List Nat) : (s.setKeyList key xs).generation = s.generation := rfl
@[simp] theorem State.setKeyList_armed (key : Digest) (xs : List Nat) : (s.setKeyList key xs).armed = s.armed := rfl
@[simp] theorem State.setKeyList_records (key : Digest) (xs : List Nat) : (s.setKeyList key xs).records = s.records := rfl
@[simp] theorem State.setKeyList_dram (key : Digest) (xs : List Nat) : (s.setKeyList key xs).dram = s.dram := rfl
@[simp] theorem State.setKeyList_pool (key : Digest) (xs : List Nat) : (s.setKeyList key xs).pool = s.pool := rfl
@[simp] theorem State.setKeyList_descFree (key : Digest) (xs : List Nat) : (s.setKeyList key xs).descFree = s.descFree := rfl
@[simp] theorem State.setKeyList_routes (key : Digest) (xs : List Nat) : (s.setKeyList key xs).routes = s.routes := rfl
@[simp] theorem State.setKeyList_lastTick (key : Digest) (xs : List Nat) : (s.setKeyList key xs).lastTick = s.lastTick := rfl
@[simp] theorem State.setKeyList_pacingNext (key : Digest) (xs : List Nat) : (s.setKeyList key xs).pacingNext = s.pacingNext := rfl
@[simp] theorem State.setKeyList_assemblies (key : Digest) (xs : List Nat) : (s.setKeyList key xs).assemblies = s.assemblies := rfl
@[simp] theorem State.setKeyList_deliveryQ (key : Digest) (xs : List Nat) : (s.setKeyList key xs).deliveryQ = s.deliveryQ := rfl
@[simp] theorem State.setKeyList_dlanes (key : Digest) (xs : List Nat) : (s.setKeyList key xs).dlanes = s.dlanes := rfl
@[simp] theorem State.setKeyList_parcels (key : Digest) (xs : List Nat) : (s.setKeyList key xs).parcels = s.parcels := rfl
@[simp] theorem State.setKeyList_cursor (key : Digest) (xs : List Nat) : (s.setKeyList key xs).cursor = s.cursor := rfl
@[simp] theorem State.setKeyList_latches (key : Digest) (xs : List Nat) : (s.setKeyList key xs).latches = s.latches := rfl
@[simp] theorem State.setKeyList_mask (key : Digest) (xs : List Nat) : (s.setKeyList key xs).mask = s.mask := rfl
@[simp] theorem State.setKeyList_counters (key : Digest) (xs : List Nat) : (s.setKeyList key xs).counters = s.counters := rfl
@[simp] theorem State.setKeyList_settings (key : Digest) (xs : List Nat) : (s.setKeyList key xs).settings = s.settings := rfl
@[simp] theorem State.setKeyList_freeUses (key : Digest) (xs : List Nat) : (s.setKeyList key xs).freeUses = s.freeUses := rfl
@[simp] theorem State.setKeyList_pending (key : Digest) (xs : List Nat) : (s.setKeyList key xs).pending = s.pending := rfl

/-! ## freeExtents -/

@[simp] theorem State.freeExtents_now (xs : List Nat) : (s.freeExtents xs).now = s.now := rfl
@[simp] theorem State.freeExtents_clusterPins (xs : List Nat) : (s.freeExtents xs).clusterPins = s.clusterPins := rfl
@[simp] theorem State.freeExtents_longPins (xs : List Nat) : (s.freeExtents xs).longPins = s.longPins := rfl
@[simp] theorem State.freeExtents_clusterUp (xs : List Nat) : (s.freeExtents xs).clusterUp = s.clusterUp := rfl
@[simp] theorem State.freeExtents_longUp (xs : List Nat) : (s.freeExtents xs).longUp = s.longUp := rfl
@[simp] theorem State.freeExtents_passOut (xs : List Nat) : (s.freeExtents xs).passOut = s.passOut := rfl
@[simp] theorem State.freeExtents_passIn (xs : List Nat) : (s.freeExtents xs).passIn = s.passIn := rfl
@[simp] theorem State.freeExtents_outQ (xs : List Nat) : (s.freeExtents xs).outQ = s.outQ := rfl
@[simp] theorem State.freeExtents_clusterTx (xs : List Nat) : (s.freeExtents xs).clusterTx = s.clusterTx := rfl
@[simp] theorem State.freeExtents_clusterLast (xs : List Nat) : (s.freeExtents xs).clusterLast = s.clusterLast := rfl
@[simp] theorem State.freeExtents_longTx (xs : List Nat) : (s.freeExtents xs).longTx = s.longTx := rfl
@[simp] theorem State.freeExtents_arbLast (xs : List Nat) : (s.freeExtents xs).arbLast = s.arbLast := rfl
@[simp] theorem State.freeExtents_lanes (xs : List Nat) : (s.freeExtents xs).lanes = s.lanes := rfl
@[simp] theorem State.freeExtents_windows (xs : List Nat) : (s.freeExtents xs).windows = s.windows := rfl
@[simp] theorem State.freeExtents_pmap (xs : List Nat) : (s.freeExtents xs).pmap = s.pmap := rfl
@[simp] theorem State.freeExtents_faultRecord (xs : List Nat) : (s.freeExtents xs).faultRecord = s.faultRecord := rfl
@[simp] theorem State.freeExtents_bankA (xs : List Nat) : (s.freeExtents xs).bankA = s.bankA := rfl
@[simp] theorem State.freeExtents_bankB (xs : List Nat) : (s.freeExtents xs).bankB = s.bankB := rfl
@[simp] theorem State.freeExtents_active (xs : List Nat) : (s.freeExtents xs).active = s.active := rfl
@[simp] theorem State.freeExtents_generation (xs : List Nat) : (s.freeExtents xs).generation = s.generation := rfl
@[simp] theorem State.freeExtents_armed (xs : List Nat) : (s.freeExtents xs).armed = s.armed := rfl
@[simp] theorem State.freeExtents_records (xs : List Nat) : (s.freeExtents xs).records = s.records := rfl
@[simp] theorem State.freeExtents_keyIndex (xs : List Nat) : (s.freeExtents xs).keyIndex = s.keyIndex := rfl
@[simp] theorem State.freeExtents_dram (xs : List Nat) : (s.freeExtents xs).dram = s.dram := rfl
@[simp] theorem State.freeExtents_descFree (xs : List Nat) : (s.freeExtents xs).descFree = s.descFree := rfl
@[simp] theorem State.freeExtents_routes (xs : List Nat) : (s.freeExtents xs).routes = s.routes := rfl
@[simp] theorem State.freeExtents_lastTick (xs : List Nat) : (s.freeExtents xs).lastTick = s.lastTick := rfl
@[simp] theorem State.freeExtents_pacingNext (xs : List Nat) : (s.freeExtents xs).pacingNext = s.pacingNext := rfl
@[simp] theorem State.freeExtents_assemblies (xs : List Nat) : (s.freeExtents xs).assemblies = s.assemblies := rfl
@[simp] theorem State.freeExtents_deliveryQ (xs : List Nat) : (s.freeExtents xs).deliveryQ = s.deliveryQ := rfl
@[simp] theorem State.freeExtents_dlanes (xs : List Nat) : (s.freeExtents xs).dlanes = s.dlanes := rfl
@[simp] theorem State.freeExtents_parcels (xs : List Nat) : (s.freeExtents xs).parcels = s.parcels := rfl
@[simp] theorem State.freeExtents_cursor (xs : List Nat) : (s.freeExtents xs).cursor = s.cursor := rfl
@[simp] theorem State.freeExtents_latches (xs : List Nat) : (s.freeExtents xs).latches = s.latches := rfl
@[simp] theorem State.freeExtents_mask (xs : List Nat) : (s.freeExtents xs).mask = s.mask := rfl
@[simp] theorem State.freeExtents_counters (xs : List Nat) : (s.freeExtents xs).counters = s.counters := rfl
@[simp] theorem State.freeExtents_settings (xs : List Nat) : (s.freeExtents xs).settings = s.settings := rfl
@[simp] theorem State.freeExtents_freeUses (xs : List Nat) : (s.freeExtents xs).freeUses = s.freeUses := rfl
@[simp] theorem State.freeExtents_pending (xs : List Nat) : (s.freeExtents xs).pending = s.pending := rfl

/-! ## setAsm -/

@[simp] theorem State.setAsm_now (a : Nat) (x : Assembly) : (s.setAsm a x).now = s.now := rfl
@[simp] theorem State.setAsm_clusterPins (a : Nat) (x : Assembly) : (s.setAsm a x).clusterPins = s.clusterPins := rfl
@[simp] theorem State.setAsm_longPins (a : Nat) (x : Assembly) : (s.setAsm a x).longPins = s.longPins := rfl
@[simp] theorem State.setAsm_clusterUp (a : Nat) (x : Assembly) : (s.setAsm a x).clusterUp = s.clusterUp := rfl
@[simp] theorem State.setAsm_longUp (a : Nat) (x : Assembly) : (s.setAsm a x).longUp = s.longUp := rfl
@[simp] theorem State.setAsm_passOut (a : Nat) (x : Assembly) : (s.setAsm a x).passOut = s.passOut := rfl
@[simp] theorem State.setAsm_passIn (a : Nat) (x : Assembly) : (s.setAsm a x).passIn = s.passIn := rfl
@[simp] theorem State.setAsm_outQ (a : Nat) (x : Assembly) : (s.setAsm a x).outQ = s.outQ := rfl
@[simp] theorem State.setAsm_clusterTx (a : Nat) (x : Assembly) : (s.setAsm a x).clusterTx = s.clusterTx := rfl
@[simp] theorem State.setAsm_clusterLast (a : Nat) (x : Assembly) : (s.setAsm a x).clusterLast = s.clusterLast := rfl
@[simp] theorem State.setAsm_longTx (a : Nat) (x : Assembly) : (s.setAsm a x).longTx = s.longTx := rfl
@[simp] theorem State.setAsm_arbLast (a : Nat) (x : Assembly) : (s.setAsm a x).arbLast = s.arbLast := rfl
@[simp] theorem State.setAsm_lanes (a : Nat) (x : Assembly) : (s.setAsm a x).lanes = s.lanes := rfl
@[simp] theorem State.setAsm_windows (a : Nat) (x : Assembly) : (s.setAsm a x).windows = s.windows := rfl
@[simp] theorem State.setAsm_pmap (a : Nat) (x : Assembly) : (s.setAsm a x).pmap = s.pmap := rfl
@[simp] theorem State.setAsm_faultRecord (a : Nat) (x : Assembly) : (s.setAsm a x).faultRecord = s.faultRecord := rfl
@[simp] theorem State.setAsm_bankA (a : Nat) (x : Assembly) : (s.setAsm a x).bankA = s.bankA := rfl
@[simp] theorem State.setAsm_bankB (a : Nat) (x : Assembly) : (s.setAsm a x).bankB = s.bankB := rfl
@[simp] theorem State.setAsm_active (a : Nat) (x : Assembly) : (s.setAsm a x).active = s.active := rfl
@[simp] theorem State.setAsm_generation (a : Nat) (x : Assembly) : (s.setAsm a x).generation = s.generation := rfl
@[simp] theorem State.setAsm_armed (a : Nat) (x : Assembly) : (s.setAsm a x).armed = s.armed := rfl
@[simp] theorem State.setAsm_records (a : Nat) (x : Assembly) : (s.setAsm a x).records = s.records := rfl
@[simp] theorem State.setAsm_keyIndex (a : Nat) (x : Assembly) : (s.setAsm a x).keyIndex = s.keyIndex := rfl
@[simp] theorem State.setAsm_dram (a : Nat) (x : Assembly) : (s.setAsm a x).dram = s.dram := rfl
@[simp] theorem State.setAsm_pool (a : Nat) (x : Assembly) : (s.setAsm a x).pool = s.pool := rfl
@[simp] theorem State.setAsm_descFree (a : Nat) (x : Assembly) : (s.setAsm a x).descFree = s.descFree := rfl
@[simp] theorem State.setAsm_routes (a : Nat) (x : Assembly) : (s.setAsm a x).routes = s.routes := rfl
@[simp] theorem State.setAsm_lastTick (a : Nat) (x : Assembly) : (s.setAsm a x).lastTick = s.lastTick := rfl
@[simp] theorem State.setAsm_pacingNext (a : Nat) (x : Assembly) : (s.setAsm a x).pacingNext = s.pacingNext := rfl
@[simp] theorem State.setAsm_deliveryQ (a : Nat) (x : Assembly) : (s.setAsm a x).deliveryQ = s.deliveryQ := rfl
@[simp] theorem State.setAsm_dlanes (a : Nat) (x : Assembly) : (s.setAsm a x).dlanes = s.dlanes := rfl
@[simp] theorem State.setAsm_parcels (a : Nat) (x : Assembly) : (s.setAsm a x).parcels = s.parcels := rfl
@[simp] theorem State.setAsm_cursor (a : Nat) (x : Assembly) : (s.setAsm a x).cursor = s.cursor := rfl
@[simp] theorem State.setAsm_latches (a : Nat) (x : Assembly) : (s.setAsm a x).latches = s.latches := rfl
@[simp] theorem State.setAsm_mask (a : Nat) (x : Assembly) : (s.setAsm a x).mask = s.mask := rfl
@[simp] theorem State.setAsm_counters (a : Nat) (x : Assembly) : (s.setAsm a x).counters = s.counters := rfl
@[simp] theorem State.setAsm_settings (a : Nat) (x : Assembly) : (s.setAsm a x).settings = s.settings := rfl
@[simp] theorem State.setAsm_freeUses (a : Nat) (x : Assembly) : (s.setAsm a x).freeUses = s.freeUses := rfl
@[simp] theorem State.setAsm_pending (a : Nat) (x : Assembly) : (s.setAsm a x).pending = s.pending := rfl

/-! ## startLong -/

@[simp] theorem State.startLong_now (f : Frame) : (s.startLong f).now = s.now := rfl
@[simp] theorem State.startLong_clusterPins (f : Frame) : (s.startLong f).clusterPins = s.clusterPins := rfl
@[simp] theorem State.startLong_longPins (f : Frame) : (s.startLong f).longPins = s.longPins := rfl
@[simp] theorem State.startLong_clusterUp (f : Frame) : (s.startLong f).clusterUp = s.clusterUp := rfl
@[simp] theorem State.startLong_longUp (f : Frame) : (s.startLong f).longUp = s.longUp := rfl
@[simp] theorem State.startLong_passOut (f : Frame) : (s.startLong f).passOut = s.passOut := rfl
@[simp] theorem State.startLong_passIn (f : Frame) : (s.startLong f).passIn = s.passIn := rfl
@[simp] theorem State.startLong_outQ (f : Frame) : (s.startLong f).outQ = s.outQ := rfl
@[simp] theorem State.startLong_clusterTx (f : Frame) : (s.startLong f).clusterTx = s.clusterTx := rfl
@[simp] theorem State.startLong_clusterLast (f : Frame) : (s.startLong f).clusterLast = s.clusterLast := rfl
@[simp] theorem State.startLong_arbLast (f : Frame) : (s.startLong f).arbLast = s.arbLast := rfl
@[simp] theorem State.startLong_lanes (f : Frame) : (s.startLong f).lanes = s.lanes := rfl
@[simp] theorem State.startLong_windows (f : Frame) : (s.startLong f).windows = s.windows := rfl
@[simp] theorem State.startLong_pmap (f : Frame) : (s.startLong f).pmap = s.pmap := rfl
@[simp] theorem State.startLong_faultRecord (f : Frame) : (s.startLong f).faultRecord = s.faultRecord := rfl
@[simp] theorem State.startLong_bankA (f : Frame) : (s.startLong f).bankA = s.bankA := rfl
@[simp] theorem State.startLong_bankB (f : Frame) : (s.startLong f).bankB = s.bankB := rfl
@[simp] theorem State.startLong_active (f : Frame) : (s.startLong f).active = s.active := rfl
@[simp] theorem State.startLong_generation (f : Frame) : (s.startLong f).generation = s.generation := rfl
@[simp] theorem State.startLong_armed (f : Frame) : (s.startLong f).armed = s.armed := rfl
@[simp] theorem State.startLong_records (f : Frame) : (s.startLong f).records = s.records := rfl
@[simp] theorem State.startLong_keyIndex (f : Frame) : (s.startLong f).keyIndex = s.keyIndex := rfl
@[simp] theorem State.startLong_dram (f : Frame) : (s.startLong f).dram = s.dram := rfl
@[simp] theorem State.startLong_pool (f : Frame) : (s.startLong f).pool = s.pool := rfl
@[simp] theorem State.startLong_descFree (f : Frame) : (s.startLong f).descFree = s.descFree := rfl
@[simp] theorem State.startLong_routes (f : Frame) : (s.startLong f).routes = s.routes := rfl
@[simp] theorem State.startLong_lastTick (f : Frame) : (s.startLong f).lastTick = s.lastTick := rfl
@[simp] theorem State.startLong_pacingNext (f : Frame) : (s.startLong f).pacingNext = s.pacingNext := rfl
@[simp] theorem State.startLong_assemblies (f : Frame) : (s.startLong f).assemblies = s.assemblies := rfl
@[simp] theorem State.startLong_deliveryQ (f : Frame) : (s.startLong f).deliveryQ = s.deliveryQ := rfl
@[simp] theorem State.startLong_dlanes (f : Frame) : (s.startLong f).dlanes = s.dlanes := rfl
@[simp] theorem State.startLong_parcels (f : Frame) : (s.startLong f).parcels = s.parcels := rfl
@[simp] theorem State.startLong_cursor (f : Frame) : (s.startLong f).cursor = s.cursor := rfl
@[simp] theorem State.startLong_latches (f : Frame) : (s.startLong f).latches = s.latches := rfl
@[simp] theorem State.startLong_mask (f : Frame) : (s.startLong f).mask = s.mask := rfl
@[simp] theorem State.startLong_counters (f : Frame) : (s.startLong f).counters = s.counters := rfl
@[simp] theorem State.startLong_settings (f : Frame) : (s.startLong f).settings = s.settings := rfl
@[simp] theorem State.startLong_freeUses (f : Frame) : (s.startLong f).freeUses = s.freeUses := rfl
@[simp] theorem State.startLong_pending (f : Frame) : (s.startLong f).pending = s.pending := rfl

/-! ## push -/

@[simp] theorem State.push_now (i : Instr) : (s.push i).now = s.now := rfl
@[simp] theorem State.push_clusterPins (i : Instr) : (s.push i).clusterPins = s.clusterPins := rfl
@[simp] theorem State.push_longPins (i : Instr) : (s.push i).longPins = s.longPins := rfl
@[simp] theorem State.push_clusterUp (i : Instr) : (s.push i).clusterUp = s.clusterUp := rfl
@[simp] theorem State.push_longUp (i : Instr) : (s.push i).longUp = s.longUp := rfl
@[simp] theorem State.push_passOut (i : Instr) : (s.push i).passOut = s.passOut := rfl
@[simp] theorem State.push_passIn (i : Instr) : (s.push i).passIn = s.passIn := rfl
@[simp] theorem State.push_outQ (i : Instr) : (s.push i).outQ = s.outQ := rfl
@[simp] theorem State.push_clusterTx (i : Instr) : (s.push i).clusterTx = s.clusterTx := rfl
@[simp] theorem State.push_clusterLast (i : Instr) : (s.push i).clusterLast = s.clusterLast := rfl
@[simp] theorem State.push_longTx (i : Instr) : (s.push i).longTx = s.longTx := rfl
@[simp] theorem State.push_arbLast (i : Instr) : (s.push i).arbLast = s.arbLast := rfl
@[simp] theorem State.push_lanes (i : Instr) : (s.push i).lanes = s.lanes := rfl
@[simp] theorem State.push_windows (i : Instr) : (s.push i).windows = s.windows := rfl
@[simp] theorem State.push_pmap (i : Instr) : (s.push i).pmap = s.pmap := rfl
@[simp] theorem State.push_faultRecord (i : Instr) : (s.push i).faultRecord = s.faultRecord := rfl
@[simp] theorem State.push_bankA (i : Instr) : (s.push i).bankA = s.bankA := rfl
@[simp] theorem State.push_bankB (i : Instr) : (s.push i).bankB = s.bankB := rfl
@[simp] theorem State.push_active (i : Instr) : (s.push i).active = s.active := rfl
@[simp] theorem State.push_generation (i : Instr) : (s.push i).generation = s.generation := rfl
@[simp] theorem State.push_armed (i : Instr) : (s.push i).armed = s.armed := rfl
@[simp] theorem State.push_records (i : Instr) : (s.push i).records = s.records := rfl
@[simp] theorem State.push_keyIndex (i : Instr) : (s.push i).keyIndex = s.keyIndex := rfl
@[simp] theorem State.push_dram (i : Instr) : (s.push i).dram = s.dram := rfl
@[simp] theorem State.push_pool (i : Instr) : (s.push i).pool = s.pool := rfl
@[simp] theorem State.push_descFree (i : Instr) : (s.push i).descFree = s.descFree := rfl
@[simp] theorem State.push_routes (i : Instr) : (s.push i).routes = s.routes := rfl
@[simp] theorem State.push_lastTick (i : Instr) : (s.push i).lastTick = s.lastTick := rfl
@[simp] theorem State.push_pacingNext (i : Instr) : (s.push i).pacingNext = s.pacingNext := rfl
@[simp] theorem State.push_assemblies (i : Instr) : (s.push i).assemblies = s.assemblies := rfl
@[simp] theorem State.push_deliveryQ (i : Instr) : (s.push i).deliveryQ = s.deliveryQ := rfl
@[simp] theorem State.push_dlanes (i : Instr) : (s.push i).dlanes = s.dlanes := rfl
@[simp] theorem State.push_parcels (i : Instr) : (s.push i).parcels = s.parcels := rfl
@[simp] theorem State.push_cursor (i : Instr) : (s.push i).cursor = s.cursor := rfl
@[simp] theorem State.push_latches (i : Instr) : (s.push i).latches = s.latches := rfl
@[simp] theorem State.push_mask (i : Instr) : (s.push i).mask = s.mask := rfl
@[simp] theorem State.push_counters (i : Instr) : (s.push i).counters = s.counters := rfl
@[simp] theorem State.push_settings (i : Instr) : (s.push i).settings = s.settings := rfl
@[simp] theorem State.push_freeUses (i : Instr) : (s.push i).freeUses = s.freeUses := rfl

end Sys2Proof.Machine
end

