-- ==== Sys2Proof/Laws/Ops.lean ====
section
/-! SUPPORT. One lemma per shared operation: what it reads back as, and a frame lemma that names every field it may change (the
result is the state it began with but for those fields). -/

namespace Sys2Proof.Machine

/-! ## Routes and lanes -/

@[simp] theorem State.route_setRoute_self (s : State) (r : RouteId) (x : Route) : (s.setRoute r x).route r = x := by
  simp [State.route, State.setRoute]

theorem State.route_setRoute_of_ne (s : State) {r q : RouteId} (x : Route) (h : q ≠ r) : (s.setRoute r x).route q = s.route q := by
  have : r.val ≠ q.val := fun e => h (Fin.ext e.symm)
  simp [State.route, State.setRoute, this]

@[simp] theorem State.route_updRoute_self (s : State) (r : RouteId) (f : Route → Route) : (s.updRoute r f).route r = f (s.route r) :=
  State.route_setRoute_self s r _

theorem State.route_updRoute_of_ne (s : State) {r q : RouteId} (f : Route → Route) (h : q ≠ r) :
    (s.updRoute r f).route q = s.route q :=
  State.route_setRoute_of_ne s _ h

@[simp] theorem State.lane_setLane_self (s : State) (l : LaneId) (x : Lane) : (s.setLane l x).lane l = x := by
  simp [State.lane, State.setLane]

theorem State.lane_setLane_of_ne (s : State) {l k : LaneId} (x : Lane) (h : k ≠ l) : (s.setLane l x).lane k = s.lane k := by
  have : l.val ≠ k.val := fun e => h (Fin.ext e.symm)
  simp [State.lane, State.setLane, this]

@[simp] theorem State.dlane_setDLane_self (s : State) (l : DeliveryLaneId) (x : DLane) : (s.setDLane l x).dlane l = x := by
  simp [State.dlane, State.setDLane]

theorem State.dlane_setDLane_of_ne (s : State) {l k : DeliveryLaneId} (x : DLane) (h : k ≠ l) :
    (s.setDLane l x).dlane k = s.dlane k := by
  have : l.val ≠ k.val := fun e => h (Fin.ext e.symm)
  simp [State.dlane, State.setDLane, this]

/-- What every turn of `each` keeps, the whole keeps. -/
theorem State.each_keeps {α : Type} (p : State → Prop) (xs : List α) (f : State → α → State)
    (h : ∀ s a, a ∈ xs → p s → p (f s a)) (s : State) (hs : p s) : p (s.each xs f) := by
  induction xs generalizing s with
  | nil => exact hs
  | cons a xs ih =>
    exact ih (fun s b hb => h s b (List.mem_cons_of_mem a hb)) (f s a) (h s a List.mem_cons_self hs)

/-! ## Counters -/

theorem State.counter_countBy (s : State) (n : Nat) (c d : Counter) :
    (s.countBy n c).counter d = if d.key = c.key then min (s.counter c + n) Config.counterMax else s.counter d := by
  simp only [State.counter, State.countBy, Table.getD_setD]

/-- A counter counts up to its maximum and holds there. -/
@[simp] theorem State.counter_countBy_self (s : State) (n : Nat) (c : Counter) :
    (s.countBy n c).counter c = min (s.counter c + n) Config.counterMax := by
  rw [State.counter_countBy, if_pos rfl]

/-! ## The cluster output queue and alerts -/

/-- A placed frame changes only the queue or the drop count. -/
theorem State.placeOut_frame (s : State) (d : Addr) (p : List Byte) :
    s.placeOut d p = { s with outQ := (s.placeOut d p).outQ, counters := (s.placeOut d p).counters } := by
  unfold State.placeOut; split <;> rfl

/-- The queue after a placing: one frame longer while a place is free, else as it was. -/
theorem State.placeOut_outQ (s : State) (d : Addr) (p : List Byte) :
    (s.placeOut d p).outQ =
      if s.outQ.length < Config.outPlaces then s.outQ ++ [{ dst := d, payload := p }] else s.outQ := by
  unfold State.placeOut; split <;> rfl

/-- A placing keeps the queue's bound (R4). -/
theorem State.placeOut_bound (s : State) (d : Addr) (p : List Byte) (h : s.outQ.length ≤ Config.outPlaces) :
    (s.placeOut d p).outQ.length ≤ Config.outPlaces := by
  rw [State.placeOut_outQ]; split
  · simp; omega
  · exact h

/-- An alert changes only the queue and the counters. -/
theorem State.sendAlert_frame (s : State) :
    s.sendAlert = { s with outQ := s.sendAlert.outQ, counters := s.sendAlert.counters } := by
  unfold State.sendAlert; split
  · rfl
  · rw [State.placeOut_frame]; rfl

/-- The end of an event changes only the queue and the counters. -/
theorem State.alertFrom_frame (b s : State) :
    b.alertFrom s = { s with outQ := (b.alertFrom s).outQ, counters := (b.alertFrom s).counters } := by
  unfold State.alertFrom; split
  · rfl
  · exact State.sendAlert_frame s

/-! ## Records -/

@[simp] theorem State.record?_setRecord_self (s : State) (n : Nat) (x : Record) : (s.setRecord n x).record? n = some x :=
  Table.find_insert_self s.records n x

theorem State.record?_setRecord_of_ne (s : State) {n m : Nat} (x : Record) (h : m ≠ n) :
    (s.setRecord n x).record? m = s.record? m :=
  Table.find_insert_of_ne s.records x h

theorem State.record?_updRecord_self (s : State) (n : Nat) (f : Record → Record) :
    (s.updRecord n f).record? n = (s.record? n).map f := by
  unfold State.updRecord; split <;> simp_all

theorem State.record?_updRecord_of_ne (s : State) {n m : Nat} (f : Record → Record) (h : m ≠ n) :
    (s.updRecord n f).record? m = s.record? m := by
  unfold State.updRecord; split
  · rfl
  · exact State.record?_setRecord_of_ne s _ h

/-- A change of a record changes only the record table. -/
theorem State.updRecord_frame (s : State) (n : Nat) (f : Record → Record) :
    s.updRecord n f = { s with records := (s.updRecord n f).records } := by
  unfold State.updRecord; split <;> rfl

/-- A slot's end changes only the record table and the counters. -/
theorem State.endSlot_frame (s : State) (n : Nat) (r : RouteId) (st : SlotState) :
    s.endSlot n r st = { s with records := (s.endSlot n r st).records, counters := (s.endSlot n r st).counters } := by
  unfold State.endSlot State.countSlot
  split
  · rfl
  · split
    · rfl
    · split
      · rfl
      · cases st <;> rfl

/-- A notice changes only the record table, the queue and the counters. -/
theorem State.noticeStep_frame (s : State) (n : Nat) :
    s.noticeStep n =
      { s with records := (s.noticeStep n).records, outQ := (s.noticeStep n).outQ, counters := (s.noticeStep n).counters } := by
  unfold State.noticeStep
  split
  · rfl
  · split
    · rfl
    · split
      · rw [State.placeOut_frame]; rfl
      · rfl

/-- The DRAINING test changes only the record table. -/
theorem State.drainStep_frame (s : State) (n : Nat) : s.drainStep n = { s with records := (s.drainStep n).records } := by
  unfold State.drainStep
  split
  · rfl
  · split <;> rfl

/-- The freeing test changes only the record table, the key index and the extent pool. -/
theorem State.freeStep_frame (s : State) (n : Nat) :
    s.freeStep n =
      { s with records := (s.freeStep n).records, keyIndex := (s.freeStep n).keyIndex, pool := (s.freeStep n).pool } := by
  unfold State.freeStep
  split
  · rfl
  · split <;> rfl

/-- The checks after a change of slots change only records, key index, extent pool, output queue and counters. -/
theorem State.recordCheck_frame (s : State) (n : Nat) :
    s.recordCheck n =
      { s with
        records := (s.recordCheck n).records
        keyIndex := (s.recordCheck n).keyIndex
        pool := (s.recordCheck n).pool
        outQ := (s.recordCheck n).outQ
        counters := (s.recordCheck n).counters } := by
  unfold State.recordCheck
  rw [State.freeStep_frame, State.drainStep_frame, State.noticeStep_frame]

/-! ## Spans -/

/-- A hand-over changes only its route and the counters. -/
theorem State.handOver_frame (s : State) (r : RouteId) :
    s.handOver r = { s with routes := (s.handOver r).routes, counters := (s.handOver r).counters } := by
  unfold State.handOver
  dsimp only
  split <;> rfl

/-- A hold test changes only its route and the counters. -/
theorem State.holdTest_frame (s : State) (r : RouteId) :
    s.holdTest r = { s with routes := (s.holdTest r).routes, counters := (s.holdTest r).counters } := by
  unfold State.holdTest State.closeSpan
  split
  · rw [State.handOver_frame]; rfl
  · rfl

/-! ## The extent pool -/

theorem extentRun_append (n a b : Nat) : extentRun n (a + b) = extentRun n a ++ extentRun (n + a) b := by
  induction a generalizing n with
  | zero => simp [extentRun]
  | succ a ih =>
    rw [show a + 1 + b = (a + b) + 1 by omega, extentRun, extentRun, ih, show n + 1 + a = n + (a + 1) by omega]; rfl

theorem extentRun_length (n k : Nat) : (extentRun n k).length = k := by
  induction k generalizing n with
  | zero => rfl
  | succ k ih => simp [extentRun, ih]

/-- A grant takes the head of the free list and leaves its tail (5.3). -/
theorem Pool.take_spec (p : Pool) (n : Nat) :
    (p.take n).1 = p.toList.take n ∧ (p.take n).2.toList = p.toList.drop n := by
  have hk : Config.extents - (p.fresh + min n (Config.extents - p.fresh)) = Config.extents - p.fresh - min n (Config.extents - p.fresh) := by
    omega
  by_cases hn : n ≤ Config.extents - p.fresh
  · have hs : Config.extents - p.fresh = n + (Config.extents - p.fresh - n) := by omega
    have e : extentRun p.fresh (Config.extents - p.fresh) = extentRun p.fresh n ++ extentRun (p.fresh + n) (Config.extents - p.fresh - n) := by
      conv_lhs => rw [hs]
      exact extentRun_append _ _ _
    have hl := extentRun_length p.fresh n
    constructor
    · simp only [Pool.take, Pool.toList, Nat.min_eq_left hn, Nat.sub_self, List.take_zero, List.append_nil, e,
        List.append_assoc]
      rw [List.take_append_of_le_length (by omega), List.take_of_length_le (by omega)]
    · simp only [Pool.take, Pool.toList, Nat.min_eq_left hn, Nat.sub_self, List.drop_zero, e, List.append_assoc,
        Nat.sub_add_eq]
      rw [List.drop_append_of_le_length (by omega), List.drop_of_length_le (by omega), List.nil_append]
  · have hn : Config.extents - p.fresh ≤ n := by omega
    have hl := extentRun_length p.fresh (Config.extents - p.fresh)
    have ht : List.take n (extentRun p.fresh (Config.extents - p.fresh)) = extentRun p.fresh (Config.extents - p.fresh) :=
      List.take_of_length_le (by omega)
    have hd : List.drop n (extentRun p.fresh (Config.extents - p.fresh)) = [] := List.drop_of_length_le (by omega)
    constructor
    · simp only [Pool.take, Pool.toList, Nat.min_eq_right hn]
      rw [List.take_append, hl, ht]
    · simp only [Pool.take, Pool.toList, Nat.min_eq_right hn]
      rw [List.drop_append, hl, hd, show Config.extents - (p.fresh + (Config.extents - p.fresh)) = 0 by omega]
      rfl

/-! ## What STATUS reports of a map index -/

theorem reportedIndex_of_lt {m : Nat} (h : m < 2 ^ 32) : reportedIndex m = m := if_pos h

/-- The four bytes of 12.3 hold what is reported, the free value too. -/
theorem reportedIndex_lt (m : Nat) : reportedIndex m < 2 ^ 32 := by
  unfold reportedIndex
  split
  · assumption
  · exact BitVec.isLt _

end Sys2Proof.Machine
end

