-- ==== Sys2Proof/Tests/Slice0.lean ====
section
/-! SUPPORT. Tests: an ill-formed term for each check of WellFormed; single steps and figures of the spec's worked sequences
(2.5, 8.10, 11.8, and the rules named); and for every obligation with hypotheses one witness that meets them all, `wit_<its
name>`, with one conjunct per clause. Values a test expects are the spec's, not the model's. -/

namespace Sys2Proof.Tests

open Sys2Proof Sys2Proof.Machine

-- one theorem at a time: each one in flight holds a thread, and its stack counts against the memory limit
set_option Elab.async false

/-! ## A small configured part -/

/-- The station that sends events and parcels. -/
def stn : Addr := 0x020000000099
/-- A frame for the part on the cluster port. -/
def cf (p : List Byte) : Frame := { dst := 0x020000000001, src := stn, ftype := 0x9C40, payload := p }
/-- A frame for the part on the long-haul port. -/
def lf (p : List Byte) : Frame := { dst := 0x020000000002, src := 0x020000000012, ftype := 0x9C40, payload := p }
/-- A frame for another station. -/
def other : Frame := { dst := 0x0200000000AA, src := stn, ftype := 0x9C40, payload := [0x01] }

/-- Route 2 of 8.10. -/
def cfg2 : RouteCfg :=
  { region := 9, addr := 0x020000000012, ceil := 4000, floor := 50, startRate := 400, burst := 32, srttInit := 200000,
    probePeriod := 1000, rtoPad := 20000 }
/-- A route of that configuration in a state. -/
def rt (st : RouteState) : Route :=
  { Route.reset with cfg := cfg2, ctl := { Control.reset with state := st, life := 7, prevLife := 7, remoteLife := some 5 }
                     pace := openingPace cfg2 }
/-- A class-1 policy with one required destination, route 2, that carries erases. -/
def pol : Policy := { cls := 1, early := true, quorum := 1, dests := [{ route := 2, required := true, erases := true }] }
/-- A part with its links up, region 4, window 0 of 2.5 and policy 17, and route 2 as given. -/
def part (x : Route) : State :=
  { State.reset with
    now := 1000000, clusterUp := true, longUp := true, routes := State.reset.routes.set 2 x
    windows := State.reset.windows.set 0 { Window.reset with enable := true, base := 0x00040000, k := 16, policy := 17 }
    bankA := [(17, pol)]
    settings := { State.reset.settings with localRegion := 4, mgmtStation := stn } }
/-- That part with route 2 in ACQUIRE. -/
def s0 : State := part (rt .acquire)

/-- A record of one slot on route 2. -/
def rec1 (len : Nat) (st : RecState) (sl : SlotState) (packed : Nat) : Record :=
  { kind := .put, bucket := 0x00042A10, key := 1, stamp := 5, length := len, check := 0, station := stn, extents := [],
    ingested := len, state := st, cls := 1, quorum := 1, early := true, generation := 1
    slots := [{ route := 2, required := true, state := sl, packed := packed, closing := none, void := none }]
    refs := 0, items := 0, notice := .noneOwed, outcome := none }

/-- The bytes of a management parcel. -/
def parcel (c : Nat) (args : List Byte) : Parcel :=
  { src := stn, bytes := pad (toBE 1 0x30 ++ toBE 1 c ++ toBE 2 41 ++ toBE 2 args.length ++ toBE 2 0 ++ args) }
/-- A state with one parcel at the head of the queue. -/
def withParcel (s : State) (c : Nat) (args : List Byte) : State := { s with parcels := [parcel c args] }
/-- The state after a command, or the state itself where it stops. -/
def after (s : State) (i : Instr) : State := match exec i s with | .next t => t | .fault _ => s | .refused _ => s

/-! ## Well-formedness: the frame of a row has the row's kind, a foreign one none of its port's -/

theorem test_wellFormed_kind : (Instr.openObject (cf [0x02])).wellFormed = false := by decide
theorem test_wellFormed_empty : (Instr.receipt (lf [])).wellFormed = false := by decide
theorem test_wellFormed_foreign : (Instr.frameDropForeign .cluster (cf [0x30])).wellFormed = false := by decide
theorem test_wellFormed_accepts :
    (Instr.openObject (cf [0x01])).wellFormed = true ∧ (Instr.frameDropForeign .cluster (cf [0x20])).wellFormed = true ∧
      Instr.status.wellFormed = true := by decide

/-! ## Figures of the spec -/

/-- The windows and map entries of 2.5. -/
def placed : State :=
  { State.reset with
    windows := ((State.reset.windows.set 0
      { Window.reset with enable := true, base := 0x00040000, k := 16, policy := 17 }).set 1
      { Window.reset with enable := true, base := 0x01F00000, k := 20, policy := 5 }).set 2
      { Window.reset with enable := true, mapped := true, base := 0x01000000, k := 24, mapBase := 1024, grain := 10 }
    pmap := [(3281, { valid := true, hold := false, policy := 9 }), (3282, { valid := true, hold := true, policy := 9 })] }

/-- 2.5: the DIRECT windows and the map entry 3,281 give policies 17, 5 and 9. -/
theorem test_classify_worked :
    (placed.classify 0x00042A10).1 = .inr 17 ∧ (placed.classify 0x01F12345).1 = .inr 5 ∧
      (placed.classify 0x01234567).1 = .inr 9 := by decide
/-- 2.5: bucket 0x01234800 is HELD, 0x00300000 LOCAL_ONLY. -/
theorem test_classify_refused :
    (placed.classify 0x01234800).1 = .inl .held ∧ (placed.classify 0x00300000).1 = .inl .localOnly := by decide
/-- 2.5: bucket 0x01E00000 reaches the invalid entry 15,360, which fills the fault record. -/
theorem test_classify_fault :
    (placed.classify 0x01E00000).1 = .inl .unplaced ∧
      (placed.classify 0x01E00000).2.faultRecord =
        some { kind := .invalidEntry, window := 2, bucket := 0x01E00000, index := 15360 } := by decide

/-- Route 2 of 8.10 at its reference state. -/
def paced : Route := { rt .track with pace := { openingPace cfg2 with rate := 800, srtt := 180000, credit := 180000, regulator := .track } }
/-- 8.10's standing figures: credit cap, flight limit, base RTO. -/
theorem test_pacing_figures : paced.cap = 204800 ∧ paced.flightLimit = 36000000 ∧ paced.baseRto = 380000 := by decide
/-- 8.10: a sample of 172,000 takes SRTT from 180,000 to 179,000. -/
theorem test_srtt_sample : nextSrtt 180000 172000 = 179000 := by decide
/-- 8.10: a decrease in TRACK takes 800 to 600, an increase 600 to 662. -/
theorem test_rates : decreasedRate cfg2 .track 800 = 600 ∧ increasedRate cfg2 .track 600 = 662 := by decide
/-- R193: the check value of the nine digits. -/
theorem test_crc_digits : crc32c [0x31, 0x32, 0x33, 0x34, 0x35, 0x36, 0x37, 0x38, 0x39] = 0xE3069283 := by decide +kernel
/-- R101: the successor of 2^32 − 1 is 1, the sequence before 1 is 2^32 − 1. -/
theorem test_sequence_wraps : seqSucc 0xFFFFFFFF = 1 ∧ seqPred 1 = 0xFFFFFFFF := by decide
/-- 11.8: two windows staged, the second with a base that is no multiple of 2^24, and two words past the end. -/
theorem test_stage_worked :
    let s := withParcel { s0 with cursor := { Cursor.reset with index := 6, write := true } } 2
      ([0x80000018, 0x02000000, 0, 0, 0x80000018, 0x02100000, 0, 0, 1, 2].flatMap (toBE 4))
    (after s .stage).windows[6].base = 0x02000000 ∧ (after s .stage).windows[7] = Window.reset ∧
      (after s .stage).cursor.index = 8 ∧
      ((after s .stage).outQ.map fun o => (field o.payload 10 2, field o.payload 12 2, field o.payload 14 2, field o.payload 16 2,
        field o.payload 18 2)) = [(1, 1, 7, 8, 2)] := by decide +kernel
/-- 1.8: a BODY above the ingested offset fails the object: SKIP, the record freed, its three extents back in the pool. -/
theorem test_lost_body :
    let s := { s0 with
      lanes := s0.lanes.set 12 { Lane.reset with state := .streaming, record := 311, declared := 150000, ingested := 8192, key := 1, stamp := 900 }
      records := [(311, { rec1 150000 .ingesting .waiting 0 with extents := [0, 1, 2], ingested := 8192, stamp := 900 })]
      keyIndex := [(1, [311])], pool := { fresh := 3, returned := [] } }
    let t := after s (.body (cf (toBE 1 2 ++ toBE 1 12 ++ toBE 2 40 ++ toBE 4 16384 ++ List.replicate 40 0)))
    (t.lane 12).state = .skip ∧ (t.lane 12).ingested = 8192 ∧ t.records = [] ∧ t.keyIndex = [] ∧ t.pool.count = 65536 := by
  decide +kernel
/-- R94, R57: a queued record cancelled before a byte was packed leaves no work, and the span whose hold has passed closes. -/
theorem test_cancel_closes_span :
    let s := { part { rt .acquire with bld := { Builder.reset with
        classQ := #v[[], [0], [], []], fill := .filling, fillSpan := { Span.empty with area := [1] }, holdStart := some 0 } } with
      lanes := s0.lanes.set 3 { Lane.reset with state := .streaming, record := 0, declared := 9 }
      records := [(0, { rec1 9 .ingesting .queued 0 with ingested := 3 })], keyIndex := [(1, [0])] }
    let t := after s (.drop (cf (pad [0x05, 3, 0, 0])))
    t.records = [] ∧ (t.route 2).bld.ready.isSome ∧ (t.route 2).bld.classQ = #v[[], [], [], []] := by decide +kernel

/-! ## Witnesses -/

/-- An OPEN on lane 3 for key 1. -/
def openF (bucket stamp len : Nat) : Frame :=
  cf (pad (toBE 1 0x01 ++ toBE 1 3 ++ toBE 2 0 ++ toBE 4 bucket ++ toBE 8 1 ++ toBE 8 stamp ++ toBE 4 len ++ toBE 4 9))
/-- What it reads to. -/
def openR (bucket : Word) (stamp : Stamp) (len : Nat) : OpenFrame :=
  { lane := 3, bucket := bucket, key := 1, stamp := stamp, length := len, check := 9 }
/-- An ERASE on lane 3 for key 1. -/
def eraseF : Frame := cf (pad (toBE 1 0x04 ++ toBE 1 3 ++ toBE 2 0 ++ toBE 4 0x00042A10 ++ toBE 8 1 ++ toBE 8 6))
/-- A BODY of three bytes on lane 3. -/
def bodyF (off : Nat) : Frame := cf (pad (toBE 1 0x02 ++ toBE 1 3 ++ toBE 2 3 ++ toBE 4 off ++ [7, 8, 9]))
/-- A SEAL (3) or DROP (5) on lane 3. -/
def laneF (k : Nat) : Frame := cf (pad (toBE 1 k ++ toBE 1 3 ++ toBE 2 0))
/-- Lane 3 in a state, its object's record 0. -/
def laneAt (s : State) (st : LaneState) (declared ingested : Nat) : State :=
  s.setLane 3 { Lane.reset with state := st, record := 0, station := stn, key := 1, stamp := 5, declared := declared, ingested := ingested }
/-- A state with record 0 filed under key 1. -/
def withRec (s : State) (x : Record) : State := { s with records := [(0, x)], keyIndex := [(1, [0])] }

theorem wit_StepRunsFrontCommand : (s0.push .status).pending = [.status] := rfl

theorem wit_IdleStepQueuesDueTimers : s0.pending = [] := rfl

/-- A segment of a whole object for key 1, its check right. -/
def seg1 (k : SegKind) (len : Nat) (d : List Byte) : Segment :=
  { kind := k, first := true, last := true, bucket := 0x00042A10, key := 1, stamp := 5, objLen := len, offset := 0
    check := if k = .putPart then crc32c d else 0, data := d }

theorem find_mem {α : Type} (t : Table α) (k : Nat) (v : α) (h : Table.find t k = some v) : (k, v) ∈ t := by
  induction t with
  | nil => cases h
  | cons e rest ih =>
    simp only [Table.find] at h
    split at h
    · next g => cases h; cases g; exact List.mem_cons_self
    · exact List.mem_cons_of_mem _ (ih h)
/-- Where every listed record and policy has its routes once. -/
theorem slotsDistinct_of (s : State)
    (h : (s.records.all (fun e => decide (e.2.slots.map (·.route)).Nodup) &&
      (s.bankA ++ s.bankB).all fun e => decide (e.2.dests.map (·.route)).Nodup) = true) : s.slotsDistinct := by
  simp only [Bool.and_eq_true, List.all_eq_true, List.mem_append, decide_eq_true_eq] at h
  refine ⟨fun n x f => h.1 _ (find_mem _ _ _ f), fun bk i p f => ?_⟩
  cases bk
  · exact h.2 _ (.inl (find_mem _ _ _ f))
  · exact h.2 _ (.inr (find_mem _ _ _ f))
/-- Where every listed ERASE has packed offsets of 0. -/
theorem erasesUnpacked_of (s : State)
    (h : (s.records.all fun e => e.2.kind == .put || e.2.slots.all (·.packed == 0)) = true) : s.erasesUnpacked := by
  intro n x f k sl m
  have g := List.all_eq_true.1 h _ (find_mem _ _ _ f)
  simp only [k, reduceCtorEq, beq_false_of_ne, ne_eq, not_false_eq_true, Bool.false_or, List.all_eq_true, beq_iff_eq] at g
  exact g sl m

/-- A STREAMING lane whose failed record still stands, and a delivery given up; a part with no lane STREAMING. -/
theorem wit_ClusterLinkDown :
    let s := { laneAt (withRec s0 { rec1 9 .ingesting .waiting 0 with refs := 1 }) .streaming 9 3 with
      dlanes := s0.dlanes.set 0 { DLane.reset with state := .awaiting }
      assemblies := [(0, eraseAsm 2 9 (seg1 .erase 0 []))] }
    let t := after s (.linkDown .cluster)
    s.slotsDistinct ∧ (s.lane 3).state = .streaming ∧ (t.record? 0).isSome ∧ (s.dlane 0).state ≠ .idle ∧
      (t.asm? 0).map (·.state) = some .queued ∧ allLanes.filter (fun l => (s0.lane l).state == .streaming) = [] :=
  ⟨slotsDistinct_of _ (by decide +kernel), by decide +kernel⟩

theorem wit_LonghaulLinkDown :
    (s0.route 2).ctl.state = .acquire ∧ ((part (rt .impaired)).route 2).ctl.state = .impaired ∧
      ((part (rt .opening)).route 2).ctl.state = .opening := by decide +kernel

/-- A record whose notice is owed with its outcome fixed, and a delivery that waits: the notice is queued, lane 0 starts. -/
theorem wit_LinkUpResumes :
    let x : Record := { rec1 9 .live .sent 9 with notice := .owed, outcome := some .landed }
    let s := { withRec s0 x with clusterUp := false, assemblies := [(4, eraseAsm 2 9 (seg1 .erase 0 []))], deliveryQ := [4] }
    let t := after s (.linkUp .cluster)
    Table.rising s.records = true ∧ s.record? 0 = some x ∧ x.state = .live ∧ x.notice = .owed ∧ (t.record? 0).isSome ∧
      t.outQ.length = 1 ∧ (s.dlane 0).state = .idle ∧ (t.dlane 0).state = .sending ∧ (t.dlane 0).asm = 4 ∧ t.deliveryQ = [] := by
  decide +kernel

theorem wit_PassThroughAndForeignFrames :
    ¬ (other.dst = s0.settings.clusterAddr ∧ other.ftype = s0.settings.frameType) ∧
      ¬ (other.dst = s0.settings.longAddr ∧ other.ftype = s0.settings.frameType) ∧ (cf []).ftype = s0.settings.frameType ∧
      (cf []).dst = s0.settings.clusterAddr ∧ (lf []).dst = s0.settings.longAddr ∧ (cf [0x20]).kind = some 0x20 ∧
      (∀ k : Byte, (cf [0x07]).kind = some k →
        k ∉ [0x01, 0x02, 0x03, 0x04, 0x05, 0x06, 0x30, 0x20, 0x21, 0x22, 0x23, 0x24]) ∧
      (lf [0x06]).kind = some 0x06 ∧ (lf [0x30]).kind = some 0x30 := by decide +kernel

/-- Each source alone and both, and an idle transmitter with nothing to send. -/
theorem wit_ClusterTransmitterAlternates :
    let s := { s0 with passIn := [other], outQ := [{ dst := stn, payload := [1] }], clusterLast := .fifo }
    s.clusterTx = none ∧ s.clusterUp = true ∧ s.outQ ≠ [] ∧ s.clusterLast = .fifo ∧ s0.clusterLast = .queue ∧
      s0.passIn = [] ∧ s0.outQ = [] := by decide +kernel

/-- One malformed frame for each case of R8: stamp 0, length 67,108,865, BODY length 0, lane 64, wrong length. -/
theorem wit_MalformedEventsAnswered :
    (malformedEvent (.openObject (openF 1 0 9)) ∧ s0.takesKind .cluster 0x01 (openF 1 0 9) = true) ∧
      malformedEvent (.openObject (openF 1 5 67108865)) ∧
      (malformedEvent (.body (cf (pad [0x02, 3, 0, 0]))) ∧ s0.takesKind .cluster 0x02 (cf (pad [0x02, 3, 0, 0])) = true) ∧
      (malformedEvent (.seal (cf [0x03, 64, 0, 0])) ∧ s0.takesKind .cluster 0x03 (cf [0x03, 64, 0, 0]) = true) ∧
      (malformedEvent (.erase (cf [0x04, 0])) ∧ s0.takesKind .cluster 0x04 (cf [0x04, 0]) = true) ∧
      (malformedEvent (.drop (cf [0x05, 0, 0])) ∧ s0.takesKind .cluster 0x05 (cf [0x05, 0, 0]) = true) := by
  unfold malformedEvent; decide +kernel

theorem wit_FramesAtLanesWithoutObject :
    s0.takesKind .cluster 0x02 (bodyF 0) = true ∧ readBodyFrame (bodyF 0).payload = some { lane := 3, offset := 0, data := [7, 8, 9] } ∧
      s0.takesKind .cluster 0x03 (laneF 3) = true ∧ readLaneFrame (laneF 3).payload = some 3 ∧
      s0.takesKind .cluster 0x05 (laneF 5) = true ∧ readLaneFrame (laneF 5).payload = some 3 ∧ (s0.lane 3).state = .idle ∧
      ((laneAt s0 .skip 9 3).lane 3).state = .skip := by decide +kernel

/-- Window 0 hits both ends of its range and not the bucket past it; a window at the end of the bucket range does not wrap. -/
theorem wit_LowestHitWindowClassifies :
    (s0.windows[0]).hits 0x00040000 = true ∧ (s0.windows[0]).hits 0x0004FFFF = true ∧ (s0.windows[0]).hits 0x00050000 = false ∧
      Window.hits { Window.reset with enable := true, base := 0xFFFFFFFF, k := 0 } 0xFFFFFFFF = true ∧
      (placed.windows[2]).mapped = true ∧ (placed.mapEntry 3281).valid = true ∧ (placed.mapEntry 3282).hold = true ∧
      (placed.mapEntry 15360).valid = false := by decide +kernel

theorem wit_lowestFreeRecord : s0.lowestFreeRecord 0 := ⟨by decide, by decide, fun m h => absurd h (Nat.not_lt_zero m)⟩
/-- Where the last record of the list, if there is one, is older. -/
theorem newer_of_last (s : State) (k : Digest) (st : Stamp)
    (h : (((s.keyList k).getLast?.bind s.record?).all fun x => decide (x.stamp < st)) = true) : s.newerThanList k st := by
  intro m x e f
  rw [e] at h
  simpa [f] using h
theorem wit_newerThanList : s0.newerThanList 1 5 ∧ (withRec s0 (rec1 9 .live .sent 9)).newerThanList 1 6 :=
  ⟨newer_of_last _ _ _ (by decide), newer_of_last _ _ _ (by decide)⟩

/-- An OPEN of 65,537 bytes, and one of none. -/
theorem wit_OpenStartsObject :
    s0.takesKind .cluster 0x01 (openF 0x00042A10 5 65537) = true ∧
      readOpen (openF 0x00042A10 5 65537).payload = some (openR 0x00042A10 5 65537) ∧
      readOpen (openF 0x00042A10 5 0).payload = some (openR 0x00042A10 5 0) ∧ (s0.lane 3).state = .idle ∧
      s0.classify 0x00042A10 = (.inr 17, s0) ∧ Table.find (s0.bank s0.active) 17 = some pol ∧ (s0.keyList 1).length < 4 ∧
      s0.settings.inboundReserve + (65537 + 65535) / 65536 ≤ s0.pool.count := by decide +kernel

/-- Refusals: no window; no policy; a stale stamp; four records of the key; no extents. A full record table is `wit_tableFull`. -/
theorem wit_OpenRefused :
    (s0.classify 0).1 = .inl .localOnly ∧ { s0 with bankA := [] }.refusesOpen 17 (openR 0x00042A10 5 9) .unplaced ∧
      (withRec s0 (rec1 9 .live .sent 9)).refusesOpen 17 (openR 0x00042A10 5 9) .stale ∧
      { s0 with keyIndex := [(1, [5, 6, 7, 8])] }.refusesOpen 17 (openR 0x00042A10 5 9) .crowded ∧
      { s0 with pool := { fresh := 65000, returned := [] } }.refusesOpen 17 (openR 0x00042A10 5 9) .full ∧
      ((withRec s0 { rec1 9 .live .sent 9 with stamp := 6 }).refusesOpen 17 { openR 0x00042A10 6 0 with check := 0 } .stale ∧
        readErase eraseF.payload = some { lane := 3, bucket := 0x00042A10, key := 1, stamp := 6 } ∧
        ∃ d ∈ pol.dests, d.required = true ∧ d.erases = true) := by
  refine ⟨by decide +kernel, by unfold State.refusesOpen; decide, ?_, ?_, ?_, ?_⟩
  · exact ⟨by decide, 0, rec1 9 .live .sent 9, by decide, by decide, by decide⟩
  · exact ⟨by decide, newer_of_last _ _ _ (by decide), by decide⟩
  · exact ⟨by decide, newer_of_last _ _ _ (by decide), by decide,
      ⟨0, ⟨by decide, by decide, fun m h => absurd h (Nat.not_lt_zero m)⟩, by decide⟩, by decide, by decide +kernel⟩
  · exact ⟨⟨by decide, 0, { rec1 9 .live .sent 9 with stamp := 6 }, by decide, by decide, by decide⟩, by decide +kernel⟩

/-- Records 0 to n − 1, all in use. -/
def fullTable (n : Nat) : Table Record := (List.range n).map fun i => (i, rec1 9 .live .sent 9)
theorem find_map_range (n m k : Nat) (x : Record) (h : k ≤ m) (hm : m < k + n) :
    Table.find ((List.range' k n).map fun i => (i, x)) m = some x := by
  induction n generalizing k with
  | zero => omega
  | succ n ih =>
    simp only [List.range'_succ, List.map_cons, Table.find]
    split
    · rfl
    · exact ih (k + 1) (by omega) (by omega)
/-- s0 with the first n record slots in use. -/
def crammed (n : Nat) : State := { s0 with records := fullTable n }
theorem crammed_full (n m : Nat) (h : m < n) : (crammed n).record? m ≠ none := by
  unfold State.record? crammed fullTable
  rw [List.range_eq_range', find_map_range n m 0 _ (Nat.zero_le m) (by omega)]
  exact Option.some_ne_none _
theorem crammed_policy (n : Nat) : (Table.find ((crammed n).bank (crammed n).active) (17 : BitVec 8).toNat).isSome = true ∧
    (crammed n).keyList 1 = [] := ⟨rfl, rfl⟩
theorem crammed_refuses (n : Nat) (h : n = 8192) : (crammed n).refusesOpen 17 (openR 0x00042A10 5 9) .tableFull :=
  ⟨(crammed_policy n).1, newer_of_last _ _ _ (by rw [show (openR 0x00042A10 5 9).key = 1 from rfl, (crammed_policy n).2]; rfl),
    by rw [show (openR 0x00042A10 5 9).key = 1 from rfl, (crammed_policy n).2]; decide, fun m k => crammed_full n m (by omega)⟩
theorem wit_tableFull : (crammed 8192).refusesOpen 17 (openR 0x00042A10 5 9) .tableFull := crammed_refuses 8192 rfl

theorem extentRun_range (n k : Nat) : extentRun n k = List.range' n k := by
  induction k generalizing n with
  | zero => rfl
  | succ k ih => rw [extentRun, ih, List.range'_succ]
/-- Where the first n extents are held, and only those, extents are conserved. -/
theorem conserved_of_held (s : State) (n : Nat) (hn : n ≤ 65536) (hp : s.pool = { fresh := n, returned := [] })
    (hh : s.heldExtents = extentRun 0 n) : s.extentsConserved := by
  have e : s.pool.toList = List.range' n (65536 - n) := by
    rw [hp]; simp [Pool.toList, Config.extents, extentRun_range]
  have r : List.range 65536 = List.range' 0 n ++ List.range' n (65536 - n) := by
    rw [List.range_eq_range']
    have := @List.range'_append_1 0 n (65536 - n)
    rw [show 0 + n = n by omega, show n + (65536 - n) = 65536 by omega] at this
    exact this.symm
  rw [State.extentsConserved, e, hh, extentRun_range, Config.extents, r]
  exact List.perm_append_comm

/-- A part whose record 0 holds extent 0 and streams on lane 3, early start due at the sixth byte. -/
def streaming : State :=
  { laneAt (withRec s0 { rec1 9 .ingesting .waiting 0 with extents := [0], ingested := 3 }) .streaming 9 3 with
    pool := { fresh := 1, returned := [] }, settings := { s0.settings with cutThrough := 6 } }
theorem wit_BodyBytesTaken :
    streaming.extentsConserved ∧ streaming.takesKind .cluster 0x02 (bodyF 3) = true ∧
      readBodyFrame (bodyF 3).payload = some { lane := 3, offset := 3, data := [7, 8, 9] } ∧
      (streaming.lane 3).state = .streaming ∧ (streaming.lane 3).ingested = 3 ∧ 3 + 3 ≤ (streaming.lane 3).declared ∧
      (streaming.record? 0).any (·.early) = true ∧ (streaming.lane 3).early = false ∧ streaming.settings.cutThrough = 6 := by
  refine ⟨conserved_of_held _ 1 (by decide) rfl rfl, ?_⟩
  decide +kernel

/-- BODY out of order and past the end, an incomplete SEAL, a DROP, and an OPEN and an ERASE on a busy lane. -/
theorem wit_ObjectsFail :
    (streaming.lane 3).state = .streaming ∧
      readBodyFrame (bodyF 4).payload = some { lane := 3, offset := 4, data := [7, 8, 9] } ∧
      ((laneAt s0 .streaming 5 3).lane 3).declared < 3 + 3 ∧ (streaming.lane 3).ingested ≠ (streaming.lane 3).declared ∧
      readLaneFrame (laneF 5).payload = some 3 ∧ readOpen (openF 0x00042A10 5 9).payload = some (openR 0x00042A10 5 9) ∧
      s0.takesKind .cluster 0x04 eraseF = true ∧
      readErase eraseF.payload = some { lane := 3, bucket := 0x00042A10, key := 1, stamp := 6 } := by decide +kernel

/-- What failing leaves: a record that a span, an item or its own ABORT holds stays FAILED, any other is free. Where a cancel closes
an OPEN span is `test_cancel_closes_span`. -/
theorem wit_ObjectsFail_held :
    let s := fun x => laneAt (withRec s0 x) .streaming 9 3
    let t := fun x => after (s x) (.drop (laneF 5))
    let part3 := { rec1 9 .ingesting .queued 3 with ingested := 3 }
    let bare := { rec1 9 .ingesting .waiting 0 with ingested := 3 }
    ((s part3).record? 0 = some part3 ∧ (part3.slots.map (·.route)).Nodup ∧
        ((t part3).record? 0).map (fun y => (y.state, y.items, y.slotState 2)) = some (.failed, 1, some .cancelled) ∧
        ((t part3).route 2).bld.ctrlQ = [{ kind := .abort, record := 0 }] ∧ (t part3).keyList 1 = [0]) ∧
      ((t { bare with refs := 1 }).record? 0).map (·.state) = some .failed ∧ (t bare).record? 0 = none ∧
      (t bare).keyList 1 = [] := by decide +kernel

/-- A whole object of no bytes, whose check is 0. -/
theorem wit_SealAccepted :
    let y := rec1 0 .ingesting .waiting 0
    let s := laneAt (withRec s0 y) .streaming 0 0
    s.takesKind .cluster 0x03 (laneF 3) = true ∧ readLaneFrame (laneF 3).payload = some 3 ∧ (s.lane 3).state = .streaming ∧
      (s.lane 3).ingested = (s.lane 3).declared ∧ (s.lane 3).crc ^^^ 0xFFFFFFFF = (s.lane 3).check ∧ s.record? 0 = some y ∧
      s.keyList y.key = [0] ∧ (∀ sl ∈ y.slots, sl.state = .waiting) ∧ (y.slots.map (·.route)).Nodup ∧ y.outcome = none ∧
      0 < y.quorum ∧ y.quorum ≤ y.slots.countP (·.required) := by decide +kernel

/-- Where the list and its records are as `State.versions` asks. -/
theorem versions_of (s : State) (k : Digest) (ns : List Nat)
    (h : (s.keyList k == ns && decide ns.Nodup &&
      ns.all fun m => (s.record? m).any fun x => x.key == k && decide (x.slots.map (·.route)).Nodup) = true) : s.versions k ns := by
  simp only [Bool.and_eq_true, beq_iff_eq, decide_eq_true_eq, List.all_eq_true, Option.any_eq_true] at h
  exact ⟨h.1.1, h.1.2, fun m hm => (h.2 m hm).imp fun x e => ⟨e.1, e.2.1, e.2.2⟩⟩
/-- Record 0 streams on lane 3 between an older version, partly packed, and a newer one whose slot is in state `v`. -/
def versioned (v : SlotState) : State :=
  laneAt { s0 with
    records := [(0, rec1 0 .ingesting .waiting 0), (1, { rec1 9 .live .queued 3 with stamp := 4, notice := .owed, refs := 1 }),
                (2, { rec1 9 .live v 0 with stamp := 6 })]
    keyIndex := [(1, [1, 0, 2])]
    routes := s0.routes.set 2 { rt .acquire with bld := { Builder.reset with classQ := #v[[], [1], [], []] } } } .streaming 0 0
/-- Beside a newer version with a SENT slot record 0 is superseded; beside one with a CANCELLED slot it takes the older one's place,
whose notice goes out. -/
theorem wit_SealAccepted_versions :
    (versioned .sent).versions 1 ([1] ++ 0 :: [2]) ∧ (versioned .cancelled).versions 1 ([1] ++ 0 :: [2]) ∧
      settledAndOpen (rec1 0 .ingesting .waiting 0).slots = (0, 1) ∧ (versioned .sent).yields [2] 2 = true ∧
      (versioned .cancelled).yields [2] 2 = false ∧
      ((after (versioned .sent) (.seal (laneF 3))).outQ.map (·.payload.head?)) = [some 0x10, some 0x11] ∧
      ((after (versioned .cancelled) (.seal (laneF 3))).outQ.map (·.payload.head?)) = [some 0x11, some 0x10] ∧
      ((after (versioned .cancelled) (.seal (laneF 3))).route 2).bld.ctrlQ = [{ kind := .abort, record := 1 }] := by
  refine ⟨versions_of _ _ _ (by decide +kernel), versions_of _ _ _ (by decide +kernel), ?_⟩
  decide +kernel
theorem wit_erasesUnpacked : (versioned .sent).erasesUnpacked ∧ (withRec s0 (rec1 9 .live .queued 3)).erasesUnpacked :=
  ⟨erasesUnpacked_of _ (by decide +kernel), erasesUnpacked_of _ (by decide +kernel)⟩

/-- Record 0 of `versioned` with three of nine bytes in, early start due at the sixth. -/
def versionedBody (v : SlotState) : State :=
  let s := versioned v
  { laneAt { s with records := Table.insert s.records 0 { rec1 9 .ingesting .waiting 0 with extents := [0], ingested := 3 } }
      .streaming 9 3 with pool := { fresh := 1, returned := [] }, settings := { s0.settings with cutThrough := 6 } }
/-- A BODY that makes early start due: the slot yields to a newer version, or is QUEUED in the place of the older one. -/
theorem wit_BodyBytesTaken_early :
    let t := fun v => after (versionedBody v) (.body (bodyF 3))
    (versionedBody .sent).versions 1 ([1] ++ 0 :: [2]) ∧ (versionedBody .cancelled).versions 1 ([1] ++ 0 :: [2]) ∧
      (versionedBody .sent).extentsConserved ∧ ((versionedBody .sent).lane 3).early = false ∧
      ((t .sent).record? 0).map (·.slotState 2) = some (some .superseded) ∧
      ((t .cancelled).record? 0).map (·.slotState 2) = some (some .queued) ∧
      ((t .cancelled).route 2).bld.ctrlQ = [{ kind := .abort, record := 1 }] ∧
      ((t .cancelled).route 2).bld.classQ = #v[[], [0], [], []] ∧
      ((t .cancelled).outQ.map fun o => (field o.payload 0 1, field o.payload 2 1, field o.payload 3 1)) = [(0x11, 2, 1)] := by
  refine ⟨versions_of _ _ _ (by decide +kernel), versions_of _ _ _ (by decide +kernel),
    conserved_of_held _ 1 (by decide) rfl (by decide +kernel), ?_⟩
  decide +kernel

/-- Under early start the SEAL finds the outcome LANDED, or slots ABANDONED at creation make it VOIDED: the notice follows ACCEPTED. -/
theorem wit_SealAccepted_early :
    let s := fun y => laneAt (withRec s0 y) .streaming 0 0
    let landed := { rec1 0 .ingesting .settled 0 with outcome := some .landed, refs := 1 }
    let gone := rec1 0 .ingesting .abandoned 0
    let sent := fun y => (after (s y) (.seal (laneF 3))).outQ.map fun o => (field o.payload 0 1, field o.payload 2 1, field o.payload 3 1)
    (s landed).versions 1 ([] ++ 0 :: []) ∧ (s gone).versions 1 ([] ++ 0 :: []) ∧ sent landed = [(0x10, 1, 0), (0x11, 1, 0)] ∧
      sent gone = [(0x10, 1, 0), (0x11, 2, 2)] ∧
      ((after (s landed) (.seal (laneF 3))).record? 0).map (·.state) = some .draining ∧
      (after (s gone) (.seal (laneF 3))).record? 0 = none := by
  refine ⟨versions_of _ _ _ (by decide +kernel), versions_of _ _ _ (by decide +kernel), ?_⟩
  decide +kernel

/-- The policy with its erase destination, and one without. -/
theorem wit_EraseAccepted :
    s0.takesKind .cluster 0x04 eraseF = true ∧ (s0.lane 3).state = .idle ∧ s0.classify 0x00042A10 = (.inr 17, s0) ∧
      0 < (pol.dests.filter (·.erases)).countP (·.required) ∧ ((pol.dests.filter (·.erases)).map (·.route)).Nodup ∧
      s0.keyList 1 = [] ∧ (∀ d ∈ pol.dests.filter (·.erases), (s0.route d.route).ctl.state ≠ .closed) ∧
      (([{ route := 2, required := true, erases := false }] : List Dest).filter (·.erases)).countP (·.required) = 0 := by decide +kernel
/-- With the destination CLOSED the record is VOIDED at once: its notice follows ACCEPTED, and it is free; with the link down it stays. -/
theorem wit_EraseAccepted_closed :
    let s := part (rt .closed)
    let t := after s (.erase eraseF)
    s.classify 0x00042A10 = (.inr 17, s) ∧ (s.lane 3).state = .idle ∧ s.keyList 1 = [] ∧ (s.route 2).ctl.state = .closed ∧
      t.outQ.map (fun o => (field o.payload 0 1, field o.payload 2 1, field o.payload 3 1)) = [(0x10, 1, 0), (0x11, 2, 2)] ∧
      t.record? 0 = none ∧
      ((after { s with clusterUp := false } (.erase eraseF)).record? 0).map (fun x => (x.notice, x.slotState 2)) =
        some (.owed, some .abandoned) := by decide +kernel
/-- An ERASE that comes after a queued version of its key. -/
theorem wit_EraseAccepted_versions :
    let s := withRec s0 (rec1 9 .live .queued 3)
    s.versions 1 [0] ∧ s.newerThanList 1 6 ∧ s.lowestFreeRecord 1 :=
  ⟨versions_of _ _ _ (by decide +kernel), newer_of_last _ _ _ (by decide),
    by decide, by decide, fun m h hm => by cases Nat.lt_one_iff.1 h; exact absurd hm (by decide)⟩

/-- Route 2 with record 0 queued; the builder's buffer and the record's bytes as given. -/
def queued (fill : FillState) (x : Record) (area : Nat) : State :=
  let s := part { rt .acquire with bld := { Builder.reset with
    classQ := #v[[], [0], [], []], fill := fill, fillSpan := { Span.empty with area := List.replicate area 0 }, holdStart := some 999999 } }
  { withRec s x with dram := [(0, 1), (1, 2), (2, 3)] }
/-- The last part of a record, before and after the hold and with SPAN_HOLD 0, and a part that leaves a streaming record starved. -/
theorem wit_PutPartPlaced :
    let x : Record := { rec1 3 .live .queued 0 with extents := [0] }
    let y : Record := { rec1 9 .ingesting .queued 0 with extents := [0], ingested := 3 }
    let s := queued .filling x 40
    ((s.route 2).bld.fill ≠ .closed ∧ (s.route 2).bld.marker = none ∧ s.nextItem 2 = some (.inr 0) ∧ s.record? 0 = some x ∧
      (x.slotOn 2).isSome ∧ 552 ≤ 9162 - (s.route 2).bld.fillSpan.area.length ∧
      readBody s.dram x.extents 0 (min (min (9162 - 40 - 40) 3) 9122) = some [1, 2, 3] ∧
      (after s (.segmentPlace 2)).routes[2].bld.ready = none ∧
      (after { s with now := 999999 + s.settings.spanHold } (.segmentPlace 2)).routes[2].bld.ready.isSome ∧
      (after { s with settings := { s.settings with spanHold := 0 } } (.segmentPlace 2)).routes[2].bld.ready.isSome) ∧
      (queued .empty y 0).nextItem 2 = some (.inr 0) ∧ readBody (queued .empty y 0).dram y.extents 0 3 = some [1, 2, 3] := by
  decide +kernel

/-- Route 2 with one control item. -/
def ctrl (k : ItemKind) (x : Record) : State :=
  withRec (part { rt .acquire with bld := { Builder.reset with ctrlQ := [{ kind := k, record := 0 }] } }) x
/-- An ABORT, with SPAN_HOLD 0 as well, an ERASE whose slot is QUEUED, and one whose slot is not. -/
theorem wit_ControlSegmentPlaced :
    ((ctrl .abort (rec1 9 .failed .cancelled 3)).route 2).bld.ctrlQ = [{ kind := .abort, record := 0 }] ∧
      ((ctrl .erase { rec1 0 .live .queued 0 with kind := .erase }).record? 0).map (·.slotState 2) = some (some .queued) ∧
      (rec1 0 .live .superseded 0).slotState 2 ≠ some .queued ∧ 40 ≤ 9162 - Span.empty.area.length ∧
      ((ctrl .abort (rec1 9 .failed .cancelled 3)).route 2).bld.fill = .empty ∧
      (let s := ctrl .abort (rec1 9 .failed .cancelled 3)
       ((after s (.segmentPlace 2)).route 2).bld.ready = none ∧
         ((after { s with settings := { s.settings with spanHold := 0 } } (.segmentPlace 2)).route 2).bld.ready.isSome) := by
  decide +kernel

/-- 551 bytes of room and more to pack; a control item with 39 bytes of room; a hold that has passed with no work. -/
theorem wit_SpanClosesByRoomOrHold :
    let s := queued .filling { rec1 600 .live .queued 0 with extents := [0] } 8611
    (s.nextItem 2 = some (.inr 0) ∧ 9162 - (s.route 2).bld.fillSpan.area.length < 552 ∧
      9162 - (s.route 2).bld.fillSpan.area.length < 40 + (600 - 0)) ∧
      (let u := part { rt .acquire with bld := { Builder.reset with
        fill := .filling, holdStart := some 999800, ctrlQ := [{ kind := .abort, record := 0 }], fillSpan := { Span.empty with area := List.replicate 9123 0 } } }
      (u.route 2).bld.ctrlQ ≠ [] ∧ 9162 - (u.route 2).bld.fillSpan.area.length < 40) ∧
      let v := part { rt .acquire with bld := { Builder.reset with fill := .filling, holdStart := some 999800 } }
      999800 + v.settings.spanHold ≤ v.now ∧ v.nextItem 2 = none := by decide +kernel

/-- A command answers a next state. -/
def isNext (r : Result) : Bool := match r with | .next _ => true | .fault _ => false | .refused _ => false
/-- Descriptor of span `q`, 100 bytes on the wire, first sent 100 ms ago. -/
def desc (q : Word) (resent : Bool) : Descriptor :=
  { seq := q, kind := .data, epoch := 1, wire := 100, segs := [], recs := [], closing := [], firstSend := 900000
    lastSend := 900000, resent := resent, requested := none, onList := false }
/-- Three spans in flight, the first one resent, the timer running since 0.5 s. -/
def three : Transmit :=
  { Transmit.reset with nextSeq := 4, window := [desc 1 true, desc 2 false, desc 3 false], inFlight := 300, timer := some 500000 }
/-- A route in a state with a transmit state, 4,000 bytes of credit and the opening pace. -/
def rtx (st : RouteState) (tx : Transmit) : Route :=
  { rt st with tx := tx, pace := { openingPace cfg2 with credit := 4000 } }

/-- Route 2 and the FIFO take turns: a run of nine grants in which the FIFO stays eligible. -/
def turns (i : Nat) : State :=
  { part (rtx .acquire { Transmit.reset with receiptDue := true }) with passOut := [other], arbLast := if i % 2 = 0 then 8 else 2 }
theorem wit_ServedOnceInNineGrants :
    (∀ i : Fin 9, (turns i).granted.isSome ∧ (turns i).eligible 8 = true ∧
      isNext (exec .longhaulGrant (turns i)) = true ∧ (turns (i + 1)).arbLast = (after (turns i) .longhaulGrant).arbLast) ∧
      (turns 0).granted = some 2 ∧ s0.granted = none := by
  decide +kernel

theorem wit_GrantStartsControlFrame :
    { s0 with passOut := [other] }.granted = some 8 ∧
      (part (rtx .impaired { Transmit.reset with receiptDue := true, replyDue := true })).granted = some (Fin.castSucc (2 : RouteId)) ∧
      (part (rtx .acquire { Transmit.reset with replyDue := true })).granted = some (Fin.castSucc (2 : RouteId)) ∧
      (part (rtx .opening { Transmit.reset with probeDue := true })).granted = some (Fin.castSucc (2 : RouteId)) ∧
      (part (rtx .impaired { Transmit.reset with probeDue := true })).granted = some (Fin.castSucc (2 : RouteId)) := by decide +kernel

/-- A DATA span with a CLOSED one behind it, and a MARKER span. -/
theorem wit_ReadySpanSent :
    let b : Builder := { Builder.reset with ready := some { Span.empty with closing := [0] }, fill := .closed }
    let x := rtx .acquire Transmit.reset
    let s := withRec (part { x with bld := b }) (rec1 9 .live .sent 9)
    let u := part { x with bld := { Builder.reset with ready := some (markerSpan 4 9 1) } }
    s.granted = some (Fin.castSucc (2 : RouteId)) ∧ (s.route 2).tx.resend = [] ∧
      ((s.record? 0).bind fun y => y.slotState 2) = some .sent ∧ u.granted = some (Fin.castSucc (2 : RouteId)) ∧
      (u.route 2).tx.resend = [] := by decide +kernel

/-- A listed span of one PUT_PART whose bytes stand in retention memory, the last of its object. -/
theorem wit_ResendRebuildsSpan :
    let d := { desc 1 true with segs := [{ record := 0, kind := .putPart, offset := 0, len := 3 }], recs := [0], onList := true }
    let s := { withRec (part (rtx .track { three with window := [d], resend := [1] }))
      { rec1 3 .live .sent 3 with extents := [0] } with dram := [(0, 7), (1, 8), (2, 9)] }
    s.granted = some (Fin.castSucc (2 : RouteId)) ∧ (s.route 2).tx.resendHead = some d ∧
      List.Forall₂ s.rebuilds d.segs [segmentBytes { seg1 .putPart 3 [7, 8, 9] with check := 0 }] := by
  refine ⟨by decide +kernel, by decide +kernel, .cons ⟨_, rfl, [7, 8, 9], rfl, ?_, by decide +kernel⟩ .nil⟩
  intro i h
  match i, h with
  | 0, _ | 1, _ | 2, _ => exact ⟨0, rfl, rfl⟩

theorem wit_PacingIntervalRefills : s0.pacingNext ≤ s0.now ∧ State.reset.now < State.reset.pacingNext := by decide

/-- A loss event, a hold, the eighth expiry, and a timer that has not expired. -/
theorem wit_ResendTimeoutBacksOff :
    let s := part (rtx .acquire three)
    let x := s.route 2
    let rto := min 4000000 (max 10000 (min 4000000 (2 * x.pace.srtt + x.cfg.rtoPad.toNat)) * 2 ^ x.tx.timeouts)
    let held := { x with pace := { x.pace with lastDec := some 900000 } }
    (500000 + rto ≤ s.now ∧ x.ctl.paused = false ∧ x.pace.lastDec = none) ∧ (s.now < 900000 + held.pace.srtt) ∧
      (500000 + 4000000 ≤ ({ part (rtx .track { three with timeouts := 7 }) with now := 5000000 }).now) ∧
      s.now < 999999 + rto ∧ x.windowSound ∧ x.tx.resendSound ∧ (after s (.resendTimeout 2)).latches = 0x0004 ∧
      ((after s (.resendTimeout 2)).route 2).tx.resend = [1] := by
  unfold Route.windowSound Transmit.windowSound Transmit.resendSound; decide +kernel

/-- A receipt from region 9 with no gaps. -/
def receiptF (src dst : BitVec 6) (t e : Word) (flt : Bool) : Frame := lf (receiptPayload src dst t e flt [])
/-- What it reads to. -/
def receiptR (src dst : Nat) (t e : Word) (flt : Bool) : ReceiptFrame :=
  { src := src, dst := dst, through := t, epoch := e, faulted := flt, gaps := [] }
theorem wit_ReceiptsThatDoNotAct :
    (s0.takesKind .longhaul 0x22 (lf [0x22]) = true ∧ readReceipt (lf [0x22]).payload = none) ∧
      (s0.takesKind .longhaul 0x22 (receiptF 9 4 5 0 false) = true ∧
        readReceipt (receiptF 9 4 5 0 false).payload = some (receiptR 9 4 5 0 false) ∧ s0.routeOfRegion 9 = some 2 ∧
        (s0.route 2).tx.through = 0 ∧ (s0.route 2).tx.window = [] ∧ s0.settings.localRegion.toNat = 4) ∧
      (readReceipt (receiptF 10 4 5 0 false).payload = some (receiptR 10 4 5 0 false) ∧ s0.routeOfRegion 10 = none) ∧
      readReceipt (receiptF 9 3 5 0 false).payload = some (receiptR 9 3 5 0 false) ∧
      readReceipt (receiptF 9 4 0 0 false).payload = some (receiptR 9 4 0 0 false) ∧
      (s0.route 2).tx.behind 0 ∧ ¬ (s0.route 2).tx.behind 5 ∧ { three with through := 5 }.behind 4 ∧
      { three with through := 1 }.behind 0xFFFFFFFF ∧ ¬ { three with through := 5 }.behind 6 := by
  unfold Transmit.behind; decide +kernel

/-- A receipt for two of three spans, the second one's closing slot SENT; RATE rises, or a hold beyond it stands. -/
theorem wit_CumulativePointAdvances :
    let tx := { three with window := [desc 1 true, { desc 2 false with closing := [0] }, desc 3 false] }
    let z := rec1 9 .live .sent 9
    let s := withRec (part (rtx .track tx)) { z with slots := z.slots.map fun sl => { sl with closing := some 2 } }
    let t := after s (.receipt (receiptF 9 4 2 0 false))
    s.takesKind .longhaul 0x22 (receiptF 9 4 2 0 false) = true ∧
      readReceipt (receiptF 9 4 2 0 false).payload = some (receiptR 9 4 2 0 false) ∧ s.routeOfRegion 9 = some 2 ∧
      (s.route 2).windowSound ∧ (s.route 2).tx.window = [desc 1 true] ++ { desc 2 false with closing := [0] } :: [desc 3 false] ∧
      (s.record? 0).map (·.slotState 2) = some (some .sent) ∧ (s.route 2).ctl.marker = none ∧
      s.now < 900000 + min 4000000 (max 10000 (min 4000000 (2 * (t.route 2).pace.srtt + (s.route 2).cfg.rtoPad.toNat))) ∧
      (s.route 2).pace.hold = none ∧ (s.route 2).pace.lastInc = none ∧ precedes 3 2 = false := by
  unfold Route.windowSound Transmit.windowSound; decide +kernel
/-- A gap at a span never resent, with a decrease and without, and one at a span already resent. -/
theorem wit_CumulativePointAdvances_gaps :
    let s := part (rtx .track three)
    let f := fun q => lf (receiptPayload 9 4 0 0 false [q])
    let u := part { rtx .track three with pace := { openingPace cfg2 with lastDec := some 900000 } }
    readReceipt (f 2).payload = some { receiptR 9 4 0 0 false with gaps := [2] } ∧
      readReceipt (f 1).payload = some { receiptR 9 4 0 0 false with gaps := [1] } ∧ (s.route 2).windowSound ∧
      0 < (s.route 2).pace.srtt ∧ (∀ d ∈ (s.route 2).tx.window, d.seq ≠ 0) ∧ (s.route 2).tx.through = 0 ∧
      (s.route 2).tx.behind 0 ∧ (s.route 2).ctl.marker = none ∧ (s.route 2).pace.lastDec = none ∧ s.now < 900000 + (u.route 2).pace.srtt ∧
      ((after s (.receipt (f 2))).route 2).tx.resend = [2] ∧ ((after s (.receipt (f 1))).route 2).tx.resend = [1] ∧
      ((after s (.receipt (f 2))).route 2).pace.rate < (s.route 2).pace.rate ∧
      ((after u (.receipt (f 2))).route 2).pace.hold = some 3 := by
  unfold Route.windowSound Transmit.windowSound Transmit.behind; decide +kernel
/-- A receipt that covers two spans and lists the third: RATE rises from 400 to 462 and falls to 347, and the third is listed. -/
theorem wit_CumulativePointAdvances_turn :
    let s := part (rtx .track three)
    let s := { s with routes := s.routes.set 2 { s.routes[2] with pace := { s.routes[2].pace with regulator := .track } } }
    let f := lf (receiptPayload 9 4 2 0 false [3])
    let g := receiptF 9 4 2 1 false
    let t := after s (.receipt f)
    s.takesKind .longhaul 0x22 f = true ∧ s.takesKind .longhaul 0x22 g = true ∧
      readReceipt f.payload = some { receiptR 9 4 2 0 false with gaps := [3] } ∧
      readReceipt g.payload = some { receiptR 9 4 2 0 false with epoch := 1, gaps := [] } ∧ (s.route 2).windowSound ∧
      (∃ d ∈ (s.route 2).tx.window, d.seq = 2) ∧ (s.route 2).ctl.marker = none ∧
      ((after s (.receipt g)).route 2).pace.rate = 462 ∧ (t.route 2).pace.rate = 347 ∧ (t.route 2).tx.resend = [3] := by
  unfold Route.windowSound Transmit.windowSound; decide +kernel

/-- Two entries ahead of the marker at 3, a RECEIPTED and a SUPERSEDED slot. -/
theorem wit_EpochSettlesSlots :
    let tx := { Transmit.reset with nextSeq := 4, through := 3, settleQ := [{ seq := 1, record := 0 }, { seq := 4, record := 1 }] }
    let x := rtx .track tx
    let s := withRec (part { x with ctl := { x.ctl with epoch := 6, marker := some { epoch := 6, requested := 0, seq := some 3 } } })
      { rec1 9 .live .receipted 9 with notice := .owed, refs := 1 }
    s.takesKind .longhaul 0x22 (receiptF 9 4 3 6 true) = true ∧
      readReceipt (receiptF 9 4 3 6 true).payload = some (receiptR 9 4 3 6 true) ∧ (s.route 2).tx.window = [] ∧
      (s.route 2).tx.through = 3 ∧ ((s.route 2).tx.settleQ.takeWhile fun e => precedes e.seq 3).length = 1 ∧
      ((after s (.receipt (receiptF 9 4 3 6 true))).route 2).ctl.settledEpoch = 6 ∧
      settledAndOpen (rec1 9 .live .receipted 9).slots = (0, 1) ∧
      ((after s (.receipt (receiptF 9 4 3 6 true))).record? 0).map (·.outcome) = some (some (.voided .faulted)) ∧
      ((after s (.receipt (receiptF 9 4 3 6 false))).record? 0).map (·.outcome) = some (some .landed) ∧
      (after s (.receipt (receiptF 9 4 3 6 false))).outQ.length = 1 := by decide +kernel

/-- A receipt that covers the closing span of a SENT slot and settles its epoch; one behind that lists a gap and settles it. -/
theorem wit_EpochSettlesSlots_turn :
    let x := rtx .track { three with settleQ := [{ seq := 2, record := 0 }] }
    let s := withRec (part { x with ctl := { x.ctl with epoch := 6, marker := some { epoch := 6, requested := 0, seq := some 3 } } })
      { rec1 9 .live .sent 9 with refs := 1 }
    let f := lf (receiptPayload 9 4 0 6 false [2])
    let t := after s (.receipt f)
    ((s.route 2).windowSound ∧ (∃ d ∈ (s.route 2).tx.window, d.seq = 3) ∧
        readReceipt (receiptF 9 4 3 6 false).payload = some (receiptR 9 4 3 6 false) ∧
        ((after s (.receipt (receiptF 9 4 3 6 false))).record? 0).map (·.slotState 2) = some (some .settled)) ∧
      ((s.route 2).tx.behind 0 ∧ s.takesKind .longhaul 0x22 f = true ∧
        readReceipt f.payload = some { receiptR 9 4 0 6 false with gaps := [2] } ∧
        readReceipt (lf (receiptPayload 9 4 0 5 false [2])).payload = some { receiptR 9 4 0 5 false with gaps := [2] } ∧
        readReceipt (receiptF 9 4 0 6 false).payload = some (receiptR 9 4 0 6 false) ∧ (t.route 2).tx.resend = [2] ∧
        (t.record? 0).map (·.slotState 2) = some (some .settled)) := by
  unfold Route.windowSound Transmit.windowSound Transmit.behind; decide +kernel

/-- Expiries at this microsecond, and one to come. -/
theorem wit_RouteTimersSetDueMarks :
    let x := rt .opening
    let y := { x with ctl := { x.ctl with probeTimer := some 1000000 }, inb := { x.inb with pendTime := some 999000 } }
    ((part y).route 2).ctl.probeTimer = some 1000000 ∧ 1000000 ≤ (part y).now ∧
      ((part y).route 2).inb.pendTime = some 999000 ∧ 999000 + (part y).settings.receiptDelay ≤ (part y).now ∧
      (s0.route 2).ctl.probeTimer = none ∧ (s0.route 2).inb.pendTime = none := by decide +kernel

/-- An assembly of three bytes for key 1, one byte of it here. -/
def growing : Assembly :=
  { eraseAsm 2 9 (seg1 .erase 0 []) with kind := .put, length := 3, extents := [0], received := 1, state := .assembling }

/-- A PROBE (0x23) or PROBE_REPLY (0x24) from region 9. -/
def probeF (kind : Nat) (o : Bool) (life echo : Word) : Frame := lf (probePayload kind o 9 4 life echo)
/-- What it reads to. -/
def probeR (o : Bool) (life echo : Word) : ProbeFrame := { openFlag := o, src := 9, dst := 4, life := life, echo := echo }
/-- The remote life of route 2 in these states is 5. -/
theorem wit_ProbesAnswered :
    (s0.takesKind .longhaul 0x23 (lf [0x23]) = true ∧ readProbe (lf [0x23]).payload = none) ∧
      s0.takesKind .longhaul 0x24 (probeF 0x24 false 5 7) = true ∧
      (s0.takesKind .longhaul 0x23 (probeF 0x23 true 6 0) = true ∧
        readProbe (probeF 0x23 true 6 0).payload = some (probeR true 6 0)) ∧
      readProbe (probeF 0x23 false 5 0).payload = some (probeR false 5 0) ∧ s0.routeOfRegion 9 = some 2 ∧
      s0.routeOfRegion 8 = none ∧ (s0.route 2).ctl.remoteLife = some 5 ∧ ((part (rt .opening)).route 2).ctl.state = .opening ∧
      ((part (rt .opening)).route 2).ctl.remoteLife ≠ some 6 ∧
      (part { rt .closed with ctl := Control.reset }).routeOfRegion 9 = some 2 := by decide +kernel

/-- A new life 6 at an IMPAIRED route with a window, a queued and a receipted slot. -/
theorem wit_OpenProbeRebases :
    let s := withRec (part (rtx .impaired three)) (rec1 9 .live .receipted 9)
    s.takesKind .longhaul 0x23 (probeF 0x23 true 6 0) = true ∧
      readProbe (probeF 0x23 true 6 0).payload = some (probeR true 6 0) ∧ (s.route 2).ctl.remoteLife ≠ some 6 ∧
      Table.rising s.records = true ∧ (s.route 2).ctl.state = .impaired := by decide +kernel
/-- The notice that the rebase makes due goes ahead of the alert; an assembly being built returns its extent. -/
theorem wit_OpenProbeRebases_notice :
    let s := { withRec (part (rtx .track three)) { rec1 9 .live .receipted 9 with notice := .owed } with
      mask := 0x1FFF, assemblies := [(0, { growing with extents := [7] })] }
    let t := after s (.probe (probeF 0x23 true 6 0))
    (∀ e ∈ s.records, (e.2.slots.map (·.route)).Nodup) ∧ Table.rising s.assemblies = true ∧
      t.outQ.map (fun o => (field o.payload 0 1, field o.payload 2 2)) = [(0x11, 0x0202), (0x32, 0x0400)] ∧
      t.assemblies = [] ∧ t.pool.returned = [7] := by decide +kernel

/-- Replies of life 7 at a route OPENING, IMPAIRED, recovered already, and cleared; one with another echo. -/
theorem wit_ProbeReplyTaken :
    s0.takesKind .longhaul 0x24 (probeF 0x24 false 5 7) = true ∧
      readProbe (probeF 0x24 false 5 7).payload = some (probeR false 5 7) ∧
      readProbe (probeF 0x24 false 5 8).payload = some (probeR false 5 8) ∧ s0.routeOfRegion 9 = some 2 ∧
      ((part (rt .opening)).route 2).ctl.life = 7 ∧ ((part (rtx .impaired three)).route 2).ctl.life = 7 ∧
      ((part (rtx .impaired three)).route 2).ctl.remoteLife = some 5 ∧ ((part (rtx .impaired three)).route 2).ctl.cleared = false ∧
      (rtx .impaired three).tx.window ≠ [] ∧
      (let x := rtx .impaired three
       let s := part { x with ctl := { x.ctl with recovered := true } }
       (s.route 2).ctl.recovered = true ∧ after s (.probeReply (probeF 0x24 false 5 7)) = s) ∧
      (let x := rtx .impaired three
       let s := part { x with ctl := { x.ctl with cleared := true } }
       (s.route 2).ctl.cleared = true ∧ (s.route 2).ctl.remoteLife = some 5 ∧
         ((after s (.probeReply (probeF 0x24 false 5 7))).route 2).tx.resend = [1, 2, 3]) := by decide +kernel

/-- A tick at the first multiple of the period, one microsecond before it, and routes that defer. -/
theorem wit_EpochTickTurnsAndMarks :
    s0.lastTick + s0.settings.epochPeriod * 1000 ≤ s0.now ∧
      { s0 with now := 999999 }.now < s0.lastTick + s0.settings.epochPeriod * 1000 ∧ (s0.route 2).ctl.state = .acquire ∧
      (s0.route 2).ctl.marker = none ∧ (s0.route 0).ctl.state = .closed ∧
      ((after s0 .epochTick).route 2).ctl.epoch = 1 ∧ ((after { after s0 .epochTick with now := 2000000 } .epochTick).route 2).ctl.epoch = 1 := by
  decide +kernel

/-- A span from region 9. -/
def spanF (k : SpanKind) (q e : Word) (gs : List Segment) : Frame := lf (spanPayload k 9 4 q e gs.length (gs.flatMap segmentBytes))
/-- What it reads to. -/
def spanR (k : SpanKind) (q e : Word) (gs : List Segment) : SpanFrame :=
  { kind := k, src := 9, dst := 4, seq := q, epoch := e, segs := gs }
/-- Behind, 1, 1,023 and 1,024 steps ahead, and at an x that is held. -/
theorem wit_ReceivedSpansJudged :
    (s0.takesKind .longhaul 0x20 (lf [0x20]) = true ∧ readSpan .data (lf [0x20]).payload = none) ∧
      (s0.takesKind .longhaul 0x21 (spanF .marker 2 1 []) = true ∧
        readSpan .marker (spanF .marker 2 1 []).payload = some (spanR .marker 2 1 [])) ∧
      readSpan .data (spanF .data 0xFFFFFFFF 1 []).payload = some (spanR .data 0xFFFFFFFF 1 []) ∧
      precedes 0xFFFFFFFF (s0.route 2).inb.expected = true ∧ seqAdvance 1 (s0.route 2).inb.expected = 2 ∧
      seqAdvance 1023 (s0.route 2).inb.expected = 1024 ∧ precedes 1025 (s0.route 2).inb.expected = false ∧
      (let h : HeldSpan := { seq := 1, len := 46, frame := spanF .marker 1 1 [] }
       (part { rt .track with inb := { Inbound.reset with held := [(1, h)] } }).heldAtX 2).isSome ∧
      s0.routeOfRegion 9 = some 2 := by decide +kernel
/-- The span at x arrives with the next one held: both are applied, and the span after the empty slot stays. -/
theorem wit_ReceivedSpansJudged_drain :
    let h := fun q => { seq := q, len := 46, frame := spanF .marker q 1 [] : HeldSpan }
    let s := part { rt .track with inb := { Inbound.reset with held := [(2, h 2), (4, h 4)] } }
    let t := after s (.markerSpan (spanF .marker 1 1 []))
    Table.rising (s.route 2).inb.held = true ∧ (∀ r, (s.route r).inb.heldSound) ∧ (t.route 2).inb.expected = 3 ∧
      (t.route 2).inb.held = [(4, h 4)] := by unfold Inbound.heldSound; decide +kernel

/-- With 3 and 5 held at x = 1, the sequences 1, 2 and 4 are missing. -/
theorem wit_GrantStartsControlFrame_gaps :
    let h := fun q => { seq := q, len := 46, frame := spanF .marker q 1 [] : HeldSpan }
    let i := { Inbound.reset with held := [(3, h 3), (5, h 5)] }
    i.expected ≠ 0 ∧ i.heldSound ∧ i.missing = [1, 2, 4] := by unfold Inbound.heldSound; decide +kernel

/-- A marker with a completed assembly ahead of it, and one with none. -/
theorem wit_MarkerSpanApplied :
    let s := { s0 with assemblies := [(0, eraseAsm 2 9 (seg1 .erase 0 []))], deliveryQ := [0] }
    s.takesKind .longhaul 0x21 (spanF .marker 1 8 []) = true ∧
      readSpan .marker (spanF .marker 1 8 []).payload = some (spanR .marker 1 8 []) ∧ s.routeOfRegion 9 = some 2 ∧
      (s.route 2).inb.expected = 1 ∧ (s.route 2).inb.held = [] ∧ (s.route 2).inb.marker = none ∧
      (s.assemblies.countP fun e => e.2.route == 2 && e.2.state != .assembling && e.2.standing == .behind) = 1 := by
  decide +kernel
/-- A marker that merges with a pending one of a fault: both assemblies are ahead of it. -/
theorem wit_MarkerSpanApplied_merged :
    let a := eraseAsm 2 9 (seg1 .erase 0 [])
    let x := rt .track
    let s := { part { x with inb := { x.inb with marker := some { epoch := 7, count := 1, faulted := true } } } with
      assemblies := [(0, { a with standing := .ahead }), (1, a)], deliveryQ := [0, 1] }
    ((after s (.markerSpan (spanF .marker 1 8 []))).route 2).inb.marker = some { epoch := 8, count := 2, faulted := true } := by
  decide +kernel

/-- A DATA span of one segment from region 9, sequence 1, epoch 8, with the given check; the checks used below were worked out
from R193 outside the model. -/
def oneF (g : Segment) (check : Nat) : Frame :=
  lf (spanHeader .data 9 4 1 8 1 (segmentBytes g).length ++ segmentBytes g ++ toBE 4 check)
/-- A span is read back where its pieces are right; `a` and `b` are the two parts of the covered range. -/
theorem readSpan_of {k : SpanKind} {p : List Byte} {n : Nat} {c : Word} {gs : List Segment} (hn : field p 14 2 = n)
    (h1 : crcBytes crcInit (p.take 32) = c) (h2 : crcFinal (crcBytes c ((p.drop 32).take n)) = field32 p (32 + n))
    (hl : (decide (36 + n ≤ p.length) && lengthAgrees p (36 + n) && (field32 p 4 != 0) &&
      (k == .data || (n == 0 && field p 12 2 == 0))) = true)
    (hw : walkSegments n ((p.drop 32).take n) = some gs) (hg : gs.length = field p 12 2) :
    readSpan k p =
      some { kind := k, src := field p 2 1, dst := field p 3 1, seq := field32 p 4, epoch := field32 p 8, segs := gs } := by
  have e : crc32c (p.take (32 + n)) = field32 p (32 + n) := by
    rw [crc32c, List.take_add, crcBytes, List.foldl_append, ← crcBytes, ← crcBytes, h1, h2]
  simp only [Bool.and_eq_true] at hl
  simp only [readSpan, hn, e, hl, hw, hg, Bool.and_true, beq_self_eq_true, if_true]
/-- An ERASE, a whole object with its check, one with another, a later part of a longer one, and an ABORT. -/
def segE : Segment := seg1 .erase 0 []
def segW : Segment := seg1 .putPart 3 [7, 8, 9]
def segB : Segment := { segW with check := 0 }
def segL : Segment := { segW with first := false, offset := 3, objLen := 6 }
def segA : Segment := { seg1 .abort 3 [] with first := false, last := false }
theorem reads_E : readSpan .data (oneF segE 0xBD5E3A37).payload = some (spanR .data 1 8 [segE]) :=
  readSpan_of (n := 40) (c := 0x6765AE57) (by decide +kernel) (by decide +kernel) (by decide +kernel) (by decide +kernel)
    (by decide +kernel) (by decide +kernel)
theorem reads_W : readSpan .data (oneF segW 0x73A83731).payload = some (spanR .data 1 8 [segW]) :=
  readSpan_of (n := 43) (c := 0x8748CAB6) (by decide +kernel) (by decide +kernel) (by decide +kernel) (by decide +kernel)
    (by decide +kernel) (by decide +kernel)
theorem reads_B : readSpan .data (oneF segB 0x7545C54E).payload = some (spanR .data 1 8 [segB]) :=
  readSpan_of (n := 43) (c := 0x8748CAB6) (by decide +kernel) (by decide +kernel) (by decide +kernel) (by decide +kernel)
    (by decide +kernel) (by decide +kernel)
theorem reads_L : readSpan .data (oneF segL 0xE7E56CE4).payload = some (spanR .data 1 8 [segL]) :=
  readSpan_of (n := 43) (c := 0x8748CAB6) (by decide +kernel) (by decide +kernel) (by decide +kernel) (by decide +kernel)
    (by decide +kernel) (by decide +kernel)
theorem reads_A : readSpan .data (oneF segA 0x50EA6431).payload = some (spanR .data 1 8 [segA]) :=
  readSpan_of (n := 40) (c := 0x6765AE57) (by decide +kernel) (by decide +kernel) (by decide +kernel) (by decide +kernel)
    (by decide +kernel) (by decide +kernel)

/-- A first part of a longer object, and one longer than its object; a later part, and the last one with the check of the whole. -/
def segF : Segment := { segW with last := false, objLen := 6, check := 0 }
def segO : Segment := { segF with objLen := 2 }
def segM : Segment := { segW with first := false, last := false, offset := 1, data := [8], check := 0 }
def segC : Segment := { segW with first := false, offset := 1, data := [8, 9] }
theorem reads_F : readSpan .data (oneF segF 0xA30E1F8A).payload = some (spanR .data 1 8 [segF]) :=
  readSpan_of (n := 43) (c := 0x8748CAB6) (by decide +kernel) (by decide +kernel) (by decide +kernel) (by decide +kernel)
    (by decide +kernel) (by decide +kernel)
theorem reads_O : readSpan .data (oneF segO 0x650AB361).payload = some (spanR .data 1 8 [segO]) :=
  readSpan_of (n := 43) (c := 0x8748CAB6) (by decide +kernel) (by decide +kernel) (by decide +kernel) (by decide +kernel)
    (by decide +kernel) (by decide +kernel)
theorem reads_M : readSpan .data (oneF segM 0x5B5C4E2F).payload = some (spanR .data 1 8 [segM]) :=
  readSpan_of (n := 41) (c := 0x38817208) (by decide +kernel) (by decide +kernel) (by decide +kernel) (by decide +kernel)
    (by decide +kernel) (by decide +kernel)
theorem reads_C : readSpan .data (oneF segC 0x96F308EB).payload = some (spanR .data 1 8 [segC]) :=
  readSpan_of (n := 42) (c := 0xD8AC16E9) (by decide +kernel) (by decide +kernel) (by decide +kernel) (by decide +kernel)
    (by decide +kernel) (by decide +kernel)
/-- A span of an ERASE and a whole object. -/
def pairF : Frame :=
  lf (spanHeader .data 9 4 1 8 2 83 ++ (segmentBytes segE ++ segmentBytes segW) ++ toBE 4 0xF3DA4083)
theorem crcBytes_take_add (c : Word) (l : List Byte) (m n : Nat) :
    crcBytes c (l.take (m + n)) = crcBytes (crcBytes c (l.take m)) ((l.drop m).take n) := by
  rw [List.take_add]; exact List.foldl_append
theorem pair_first : crcBytes 0x32BE91CD ((pairF.payload.drop 32).take 40) = 0xED2EDEF0 := by decide +kernel
theorem pair_second : crcFinal (crcBytes 0xED2EDEF0 (((pairF.payload.drop 32).drop 40).take 43)) = field32 pairF.payload (32 + 83) := by
  decide +kernel
theorem reads_pair : readSpan .data pairF.payload = some (spanR .data 1 8 [segE, segW]) :=
  readSpan_of (n := 83) (c := 0x32BE91CD) (by decide +kernel) (by decide +kernel)
    (by rw [show 83 = 40 + 43 from rfl, crcBytes_take_add, pair_first]; exact pair_second) (by decide +kernel)
    (by decide +kernel) (by decide +kernel)

/-- Each of those spans meets the premises at s0; the ABORT also where an assembly of its object stands. -/
theorem wit_DataSegmentApplied :
    let s := { s0 with assemblies := [(0, growing)], pool := { fresh := 1, returned := [] } }
    (s0.takesKind .longhaul 0x20 (oneF segW 0x73A83731) = true ∧ s0.routeOfRegion 9 = some 2 ∧ (s0.route 2).inb.expected = 1 ∧
        s0.assemblies = [] ∧ 1 ≤ s0.pool.count ∧ s0.findAsm 2 segW = none ∧ crc32c segW.data = segW.check) ∧
      crc32c segB.data ≠ segB.check ∧
      (s.findAsm 2 segA = some (0, growing) ∧ Table.rising s.assemblies = true ∧ s.asm? 1 = none ∧ s.asm? 0 ≠ none) := by
  decide +kernel
theorem heldAtX_of {s : State} {r : RouteId} {h : HeldSpan} {sp : SpanFrame}
    (f : Table.find (s.route r).inb.held (holdSlot (s.route r).inb.expected) = some h)
    (q : h.seq = (s.route r).inb.expected) (e : h.read = some sp) : s.heldAtX r = some { span := sp, frame := h.frame } := by
  simp only [State.heldAtX, f, if_pos q, e, Option.map_some]
/-- A span at x that finds no extent free, alone and with its copy held there: it stays held at x, applied by neither. -/
theorem wit_ReceivedSpansJudged_starved :
    let f := oneF segW 0x73A83731
    let h : HeldSpan := { seq := 1, len := f.payload.length, frame := f }
    let x := rt .track
    let s := fun held => { part { x with inb := { x.inb with held := held } } with pool := { fresh := 65536, returned := [] } }
    (s []).takesKind .longhaul 0x20 f = true ∧ h.read = some (spanR .data 1 8 [segW]) ∧
      Table.rising ((s [(1, h)]).route 2).inb.held = true ∧ ((s [(1, h)]).route 2).inb.heldSound ∧
      (s []).lacks (spanR .data 1 8 [segW]) ∧ (s [(1, h)]).lacks (spanR .data 1 8 [segW]) ∧ (s [(1, h)]).heldAtX 2 = some { span := spanR .data 1 8 [segW], frame := f } := by
  have r : HeldSpan.read { seq := 1, len := (oneF segW 0x73A83731).payload.length, frame := oneF segW 0x73A83731 } =
      some (spanR .data 1 8 [segW]) := by
    rw [HeldSpan.read, if_neg (by decide +kernel)]; exact reads_W
  refine ⟨by decide +kernel, r, by decide +kernel, fun e m => ?_, ?_, ?_, ?_⟩
  · cases List.mem_singleton.1 m
    exact ⟨rfl, by rw [r]; rfl⟩
  · unfold State.lacks; decide +kernel
  · unfold State.lacks; decide +kernel
  · exact heldAtX_of (h := { seq := 1, len := _, frame := oneF segW 0x73A83731 }) (by decide +kernel) (by decide +kernel) r
/-- The parts of one object meet a standing assembly: a first part replaces it; a later one is of another offset, extends it,
completes it with the right running sum, is bad with another, or is too long. The pair of segments finds room at s0. -/
theorem wit_DataSegmentApplied_parts :
    let s := { s0 with assemblies := [(0, growing)], pool := { fresh := 1, returned := [] } }
    let z := { growing with crc := crcBytes 0xFFFFFFFF [7] }
    s.findAsm 2 segW = some (0, growing) ∧ s.findAsm 2 segF = some (0, growing) ∧
      (s.findAsm 2 segB = some (0, growing) ∧ crc32c segB.data ≠ segB.check) ∧ growing.received ≠ segL.offset ∧
      (growing.received = segM.offset ∧ growing.received + segM.data.length ≤ growing.length ∧ segM.last = false) ∧
      (z.received = segC.offset ∧ z.received + segC.data.length = z.length ∧
        crcBytes z.crc segC.data ^^^ 0xFFFFFFFF = segC.check ∧ crcBytes growing.crc segC.data ^^^ 0xFFFFFFFF ≠ segC.check) ∧
      ({ growing with length := 1 }.length < growing.received + segM.data.length) ∧
      (segF.data.length ≤ segF.objLen ∧ s0.findAsm 2 segF = none ∧ segO.objLen < segO.data.length ∧ s0.findAsm 2 segO = none) ∧
      (∀ g ∈ [segE, segW], s0.findAsm 2 g = none) ∧ crc32c segW.data = segW.check ∧ segW.data.length = segW.objLen ∧
      z.length ≤ 65536 * z.extents.length := by
  decide +kernel
/-- That pool and that assembly hold every extent once. -/
theorem wit_DataSegmentApplied_extents :
    ({ s0 with assemblies := [(0, growing)], pool := { fresh := 1, returned := [] } } : State).extentsConserved :=
  conserved_of_held _ 1 (by decide) rfl rfl
/-- With every assembly in use a later part and an ABORT of a standing one still meet the premises. -/
theorem wit_DataSegmentApplied_full :
    let s := { s0 with assemblies := (List.range 512).map fun i => (i, if i = 500 then growing else { growing with key := 2 }) }
    Table.rising s.assemblies = true ∧ s.findAsm 2 segM = some (500, growing) ∧ s.findAsm 2 segA = some (500, growing) ∧
      ¬ (segM.kind = .erase ∨ segM.kind = .putPart ∧ segM.first = true) ∧
      ¬ (segA.kind = .erase ∨ segA.kind = .putPart ∧ segA.first = true) := by decide +kernel
theorem wit_extentsConserved : s0.extentsConserved := conserved_of_held s0 0 (by decide) (by decide +kernel) (by decide +kernel)

/-- No extent free for `reads_W`, and no assembly free for `reads_E`. -/
theorem wit_StarvedSpanHeld :
    { s0 with pool := { fresh := 65536, returned := [] } }.pool.count < (segW.objLen + 65535) / 65536 := by decide +kernel
theorem wit_noAssemblyFree : 512 - ({ s0 with assemblies := (List.range 512).map fun i => (i, growing) }).assemblies.length < 1 := by
  simp

/-- Delivery lane 0 with an assembly of three bytes, or an erase. -/
def sendingS (a : Assembly) (p : DPhase) (off : Nat) : State :=
  { s0 with
    assemblies := [(0, { a with state := .delivering })], dram := [(0, 7), (1, 8), (2, 9)]
    dlanes := s0.dlanes.set 0 { DLane.reset with state := .sending, phase := p, sendOffset := off } }
theorem wit_ReplicaFramesPlaced :
    let s := sendingS growing .body 0
    (s.dlane 0).state = .sending ∧ s.outQ.length < 448 ∧ (∀ k : DeliveryLaneId, ¬ k < 0) ∧ (s.asm? 0).isSome ∧
      readBody s.dram growing.extents 0 (min 8192 (growing.length - 0)) = some [7, 8, 9] ∧
      ((sendingS growing .opening 0).dlane 0).phase = .opening ∧ ((sendingS growing .sealing 3).dlane 0).phase = .sealing ∧
      ((sendingS (eraseAsm 2 9 (seg1 .erase 0 [])) .opening 0).asm? 0).map (·.kind) = some .erase ∧ (s.dlane 1).state ≠ .sending ∧
      ¬ (List.replicate 448 ({ dst := 0, payload := [] } : OutFrame)).length < 448 := by decide +kernel

/-- Delivery lane 0 awaiting an answer until this microsecond, after three retries or fewer. -/
def awaitingS (n : Nat) : State :=
  { s0 with
    assemblies := [(0, { growing with state := .delivering })]
    dlanes := s0.dlanes.set 0 { DLane.reset with state := .awaiting, attempts := n, expiry := some 1000000 } }
theorem wit_StoreAnswerEndsDelivery :
    let ok := cf (pad [0x06, 0, 3, 0])
    (awaitingS 0).takesKind .cluster 0x06 ok = true ∧ lengthAgrees ok.payload 4 = true ∧ field ok.payload 1 1 = 0 ∧
      field ok.payload 2 1 = 3 ∧ ((awaitingS 0).dlane 0).state = .awaiting ∧ ((awaitingS 0).dlane 1).state ≠ .awaiting ∧
      ((awaitingS 0).asm? ((awaitingS 0).dlane 0).asm).isSome ∧ field (cf (pad [0x06, 16, 1, 0])).payload 1 1 = 16 ∧
      field (cf (pad [0x06, 15, 4, 0])).payload 2 1 ∉ [1, 2, 3] := by decide +kernel

/-- A delivery that waits is taken by the lane just ended, or by no lane while the cluster link is down. -/
theorem wit_StoreAnswerEndsDelivery_next :
    let busy := { awaitingS 3 with
      assemblies := [(0, { growing with state := .delivering }), (1, { growing with state := .queued })], deliveryQ := [1] }
    let ok := .storeAnswer (cf (pad [0x06, 0, 1, 0]))
    let t := after busy ok
    (t.dlane 0).state = .sending ∧ (t.dlane 0).asm = 1 ∧ (t.asm? 1).map (·.state) = some .delivering ∧ t.asm? 0 = none ∧
      t.deliveryQ = [] ∧ ((after busy (.deliveryTimeout 0)).dlane 0).asm = 1 ∧
      (after { busy with clusterUp := false } ok).deliveryQ = [1] := by decide +kernel

theorem wit_DeliveryTimeoutRetries :
    ((awaitingS 2).dlane 0).expiry = some 1000000 ∧ 1000000 ≤ (awaitingS 2).now ∧ ((awaitingS 2).dlane 0).attempts < 3 ∧
      3 ≤ ((awaitingS 3).dlane 0).attempts ∧ ((awaitingS 3).dlane 1).state ≠ .awaiting := by decide +kernel

/-- A parcel with room and without; a head parcel with an unknown command. -/
theorem wit_ControlParcelsQueued :
    s0.takesKind .cluster 0x30 (cf [0x30]) = true ∧ s0.parcels.length < 4 ∧
      4 ≤ ({ s0 with parcels := List.replicate 4 (parcel 6 []) }).parcels.length ∧ readParcel (parcel 10 []).bytes = none ∧
      (parcel 10 []).command = 10 := by decide +kernel

theorem wit_SelectAndTurnJudged :
    readParcel (parcel 1 (toBE 1 1 ++ toBE 1 1 ++ toBE 2 7)).bytes = some (.select .windows true 7) ∧
      readParcel (parcel 1 (toBE 1 1 ++ toBE 1 1 ++ toBE 2 8)).bytes = some (.select .windows true 8) ∧
      readParcel (parcel 1 (toBE 1 4 ++ toBE 1 1 ++ toBE 2 0)).bytes = some (.select .policyActive true 0) ∧
      readParcel (parcel 4 []).bytes = some .turn ∧ s0.armed = false := by decide +kernel

/-- Whole entries with and without a pass, map words, and the four refusals. -/
theorem wit_StageCommitsEntries :
    let at' := fun t i => { s0 with cursor := { Cursor.reset with table := t, index := i, write := true } }
    let w : List Word := [0x80000018, 0x02000000, 0, 0]
    readParcel (parcel 2 (w.flatMap fun x => toBE 4 x.toNat)).bytes = some (.stage w) ∧ windowOk w = true ∧
      windowOk [0x80000018, 0x02100000, 0, 0] = false ∧ policyOk (policyWords (some pol)) = true ∧
      s0.routeOk 3 ({ cfg2 with region := 10 }).words = true ∧ s0.routeOk 3 cfg2.words = false ∧
      (s0.route 3).ctl.state = .closed ∧ State.reset.localOk { State.reset.settings with localRegion := 4 }.words = true ∧
      (at' .placementMap 16383).cursor.index < (TableName.placementMap).entries ∧
      (at' .windows 8).cursor.table.entries ≤ 8 ∧ s0.cursor.write = false ∧
      ((at' .routes 2).route 2).ctl.state ≠ .closed ∧ { at' .policyStandby 0 with armed := true }.armed = true := by
  decide +kernel

/-- Four words behind two staged ones complete window 6 and leave two staged; the words of two windows complete both. -/
theorem wit_StageCommitsEntries_staged :
    let w : List Word := [0x80000018, 0x02000000, 0, 0]
    let bytes := fun ws : List Word => ws.flatMap fun x => toBE 4 x.toNat
    let c := { Cursor.reset with index := 6, pos := 2, write := true, staged := w.take 2 }
    let s := withParcel { s0 with cursor := c } 2 (bytes (w.drop 2 ++ w.take 2))
    let u := withParcel { s0 with cursor := { Cursor.reset with index := 6, write := true } } 2 (bytes (w ++ w))
    readParcel (parcel 2 (bytes (w.drop 2 ++ w.take 2))).bytes = some (.stage (w.drop 2 ++ w.take 2)) ∧
      readParcel (parcel 2 (bytes (w ++ w))).bytes = some (.stage (w ++ w)) ∧ c.staged.length = c.pos ∧ c.pos < c.table.width ∧
      (after s .stage).cursor = { c with index := 7, staged := w.take 2 } ∧ (after s .stage).windows[6].base = 0x02000000 ∧
      (after u .stage).windows[6].base = 0x02000000 ∧ (after u .stage).windows[7].base = 0x02000000 := by
  decide +kernel

/-- 12.4, R34: with bank A ACTIVE, POLICY_ACTIVE reads its entry 17 and POLICY_STANDBY reads zeros there. -/
theorem test_fetch_banks :
    s0.active = .a ∧ s0.entryWords .policyActive 17 = [0xD0000000, 0x302, 0, 0, 0, 0] ∧
      s0.entryWords .policyStandby 17 = [0, 0, 0, 0, 0, 0] := by decide +kernel
theorem wit_FetchReturnsCommitted :
    readParcel (parcel 3 (toBE 2 5)).bytes = some (.fetch 5) ∧ s0.cursor.write = false ∧ s0.cursor.pos < s0.cursor.table.width ∧
      s0.cursor.index < s0.cursor.table.entries := by decide +kernel

/-- Route 2 ready to open with a previous life; the four refusals. -/
theorem wit_RouteOpens :
    let s := part { rt .closed with ctl := { Control.reset with prevLife := 1000000 } }
    readParcel (parcel 5 [2, 1]).bytes = some (.route 2 .openRoute) ∧
      ((s.route 2).ctl.state = .closed ∧ s.settings.localRegion ≠ 0 ∧ (s.route 2).cfg.region ≠ 0 ∧
        (s.route 2).cfg.region ≠ s.settings.localRegion) ∧
      (s0.route 2).ctl.state ≠ .closed ∧ State.reset.settings.localRegion = 0 ∧ (s.route 3).cfg.region = 0 ∧
      ((part { rt .closed with cfg := { cfg2 with region := 4 } }).route 2).cfg.region = 4 := by decide +kernel
/-- R143: a time of 1000000 after the life 1000000 gives 1000001, one of 2^32 − 1 after itself 1, one of 2^32 after the life 1 gives 2. -/
theorem test_new_life :
    newLife 1000000 1000000 = 1000001 ∧ newLife 4294967295 4294967295 = 1 ∧ newLife 4294967296 0 = 1 ∧
      newLife 4294967296 1 = 2 ∧ newLife 4294967301 0 = 5 := by decide

theorem wit_RouteCloses :
    let s := withRec (part (rtx .impaired three)) (rec1 9 .live .receipted 9)
    readParcel (parcel 5 [2, 2]).bytes = some (.route 2 .closeRoute) ∧ (s.route 2).ctl.state ≠ .closed ∧
      Table.rising s.records = true ∧ Table.rising s.assemblies = true ∧ ((part (rt .closed)).route 2).ctl.state = .closed := by
  decide +kernel
/-- A close that makes a notice due: it stands ahead of the status parcel, VOIDED for ABANDONED. -/
theorem wit_RouteCloses_notice :
    let x := { rec1 9 .live .sent 9 with notice := .owed }
    let s := withParcel (withRec (part (rtx .track three)) x) 5 [2, 2]
    (∀ e ∈ s.records, (e.2.slots.map (·.route)).Nodup) ∧ s.clusterUp = true ∧
      ((after s .routeClose).outQ.map fun o => (field o.payload 0 1, field o.payload 2 1, field o.payload 3 1)).head? = some (0x11, 2, 2) ∧
      (after s .routeClose).outQ.length = 2 := by decide +kernel

theorem wit_RouteActionsTaken :
    readParcel (parcel 5 [8, 3]).bytes = some (.route 8 .pause) ∧ readParcel (parcel 5 [2, 3]).bytes = some (.route 2 .pause) ∧
      readParcel (parcel 5 [7, 4]).bytes = some (.route 7 .resume) ∧
      readParcel (parcel 5 [2, 5]).bytes = some (.route 2 .clearImpaired) ∧
      ((part (rtx .impaired three)).route 2).ctl.paused = false ∧ (s0.route 2).ctl.state = .acquire ∧
      (s0.route 7).ctl.state = .closed := by decide +kernel

theorem wit_StatusAndCountersRead :
    readParcel (parcel 6 []).bytes = some .status ∧ readParcel (parcel 7 [31, 1]).bytes = some (.counters 31 true) ∧
      countersOf 31 = none ∧ (countersOf 18).isSome ∧ s0.pool.count < 2 ^ 32 ∧ (s0.route 2).tx.inFlight < 2 ^ 32 := by
  decide +kernel

/-- 12.3: the places of the five kinds of group, and the first and last counters of the route group of route 2. -/
theorem test_counter_places :
    (∀ g : Fin 40, (countersOf g).map (·.map Counter.key) = (groupSize g).map fun n => (List.range n).map (counterKey g)) ∧
      (countersOf 18).map (fun cs => (cs.head?, cs.getLast?)) =
        some (some (.route 2 .spansClosedRoom), some (.route 2 .receiptsSent)) := by decide +kernel

/-- A fault record latched and enabled, and a route PAUSED with a marker outstanding. -/
theorem wit_StatusAndCountersRead_reports :
    let x := rt .track
    let s := { withParcel (part { x with ctl := { x.ctl with paused := true, marker := some { epoch := 3, requested := 999990, seq := none } } }) 6 [] with
      latches := 0x1000, mask := 0x1000, faultRecord := some { kind := .beyondMap, window := 2, bucket := 7, index := 16384 } }
    let p := (after s .status).outQ.map (·.payload.drop 10)
    s.now < 2 ^ 64 ∧ p.map (fun r => (field r 24 1, field r 25 1, field r 26 1, field r 28 4, field r 32 4)) = [(1, 2, 2, 7, 16384)] ∧
      p.map (fun r => (field r 117 1, field r 148 8)) = [(3, 10)] := by decide +kernel

theorem wit_EventsTaken :
    readParcel (parcel 8 (toBE 2 0x1FFF ++ toBE 2 0x1000)).bytes = some (.events 0x1FFF 0x1000) := by decide +kernel
theorem wit_RestartKeepsConfiguration : readParcel (parcel 9 []).bytes = some .restart := by decide +kernel

theorem wit_OnlyNamedCommandsChange :
    isNext (exec .status (withParcel s0 6 [])) = true ∧ isNext (exec .restart (withParcel s0 9 [])) = true := by decide +kernel

/-- A state in which the invariants hold and a step is taken. -/
def running : State := withRec (part (rtx .track three)) (rec1 0 .live .receipted 0) |>.push .epochTick
theorem wit_StepKeepsQueuesAndTables :
    running.queuesBounded ∧ running.tablesCanonical ∧ isNext (step running) = true := by
  unfold State.queuesBounded State.tablesCanonical; decide +kernel
theorem wit_countersBounded : running.countersBounded := fun _ => Nat.zero_le _
theorem wit_StepKeepsExtents : running.extentsConserved := conserved_of_held _ 0 (by decide) rfl rfl
theorem wit_StepKeepsSendWindows :
    (∀ r, (running.route r).windowSound) ∧ { running with descFree := 65533 }.descriptorsConserved ∧
      ∀ r, (running.route r).tx.resendSound := by
  unfold Route.windowSound Transmit.windowSound Transmit.resendSound State.descriptorsConserved; decide +kernel
theorem wit_StepKeepsPaceInRange : ∀ r, (running.route r).paceSound := by
  have ready : ∀ r, (running.route r).bld.ready = none := by decide +kernel
  have wires : ∀ r, (running.route r).bld.fillSpan.wire ≤ 9216 ∧ ∀ d ∈ (running.route r).tx.window, d.wire ≤ 9216 := by
    decide +kernel
  have rest : ∀ r, let x := running.route r
      (x.cfg.region ≠ 0 → x.cfg.limitsHold) ∧ (x.ctl.state = .closed → x.pace = Pacing.reset ∧ x.tx.timer = none) ∧
        (x.ctl.state ≠ .closed → x.cfg.region ≠ 0 ∧ x.paceInRange) := by
    unfold RouteCfg.limitsHold Route.paceInRange; decide +kernel
  exact fun r => ⟨⟨(wires r).1, fun sp h => (by rw [ready r] at h; cases h), (wires r).2⟩, rest r⟩

/-- A record of two slots, one of them SETTLED, which a receipt leaves as it is. -/
theorem wit_TerminalSlotsFinal :
    let s := withRec (part (rtx .track three)) (rec1 0 .live .settled 0)
    s.slotsDistinct ∧ s.erasesUnpacked ∧ Table.rising s.records = true ∧ s.record? 0 = some (rec1 0 .live .settled 0) ∧
      ((after s .epochTick).record? 0).isSome ∧ isNext (exec .epochTick s) = true :=
  ⟨slotsDistinct_of _ (by decide +kernel), erasesUnpacked_of _ (by decide +kernel), by decide +kernel⟩

theorem wit_EntryWordsRoundTrip :
    windowOk [0x80000018, 0x02000000, 0, 0] = true ∧ mapOk 0xC0000011 = true ∧ policyOk (policyWords (some pol)) = true ∧
      (1 ≤ pol.quorum ∧ pol.dests.length ≤ 4) ∧ s0.routeOk 2 cfg2.words = true ∧ s0.settings.inRange = true ∧
      10 ∣ s0.settings.epochPeriod ∧ 10 ∣ s0.settings.deliveryWait ∧ 65536 ∣ s0.settings.cutThrough ∧ 10 ∣ s0.settings.spanHold ∧
      10 ∣ s0.settings.receiptDelay := by decide +kernel

theorem wit_FramesReadBack :
    let g := seg1 .putPart 3 [7, 8, 9]
    (1 : Word) ≠ 0 ∧ ([g].flatMap segmentBytes).length ≤ 9162 ∧ g.objLen ≤ 67108864 ∧ g.offset < 2 ^ 32 ∧ g.data.length ≤ 9122 ∧
      ([1, 2, 3] : List Word).length ≤ 8 ∧ growing.length < 2 ^ 32 ∧ g.data.length ≤ 8192 ∧ s0.now < 2 ^ 64 ∧ 0x24 < 256 ∧
      g.objLen < 2 ^ 32 ∧ g.data.length < 2 ^ 16 ∧ (readOpen (openF 0x00042A10 5 9).payload).isSome ∧
      (readErase eraseF.payload).isSome ∧ (readBodyFrame (bodyF 3).payload).isSome ∧ (readLaneFrame (laneF 3).payload).isSome ∧
      (readParcel (parcel 9 []).bytes).isSome := by
  decide +kernel

end Sys2Proof.Tests
end

section
/-! SUPPORT. The statements of the policy generations and epochs (3.2, 9.5) and of the commands SELECT and TURN (11.2): the rules of
the operations they rest on, then the two obligations. -/

namespace Sys2Proof.Machine

/-! ## Counters -/

/-- A count leaves every counter kept elsewhere as it was. -/
theorem State.counter_count_of_key_ne (s : State) {c d : Counter} (h : d.key ≠ c.key) : (s.count c).counter d = s.counter d := by
  rw [State.count, State.counter_countBy, if_neg h]

/-- One event counted. -/
theorem State.counter_count_self (s : State) (c : Counter) : (s.count c).counter c = min (s.counter c + 1) Config.counterMax :=
  State.counter_countBy_self s 1 c

/-- A counter is read from the counter table alone. -/
theorem State.counter_congr {s t : State} (h : t.counters = s.counters) (c : Counter) : t.counter c = s.counter c := by
  simp only [State.counter, h]

theorem State.count_counted (s : State) (c : Counter) : s.counted (s.count c) 1 c :=
  fun _ => State.counter_count_self s c

theorem State.counted_zero_of_eq {s t : State} {c : Counter} (h : t.counter c = s.counter c) : s.counted t 0 c := by
  intro hs
  omega

/-- A route's group holds fewer than 64 counters, so the groups do not meet. -/
theorem RouteCounter.place_lt (c : RouteCounter) : c.place < 64 := by
  cases c <;> decide

/-- Counters of different routes are kept apart. -/
theorem Counter.key_route_ne {q r : RouteId} (h : q ≠ r) (c d : RouteCounter) : (Counter.route q c).key ≠ (Counter.route r d).key := by
  have hv : q.val ≠ r.val := fun e => h (Fin.ext e)
  have hc := c.place_lt
  have hd := d.place_lt
  simp only [Counter.key, counterKey]
  omega

/-- Counters of one route are kept by their places. -/
theorem Counter.key_route_ne_of_place {c d : RouteCounter} (r : RouteId) (h : c.place ≠ d.place) :
    (Counter.route r c).key ≠ (Counter.route r d).key := by
  simp only [Counter.key, counterKey]
  omega

@[simp] theorem State.route_countRoute (s : State) (q r : RouteId) (c : RouteCounter) : (s.countRoute q c).route r = s.route r := rfl

/-! ## What stands at one route

The work of an epoch tick goes from route to route. What it does at a route depends only on, and only changes, what stands there. -/

/-- The two states agree in what a tick reads and changes at route `r`: the time, the settings, the route, its counters. -/
structure State.SameAt (r : RouteId) (s t : State) : Prop where
  now : t.now = s.now
  settings : t.settings = s.settings
  route : t.route r = s.route r
  counter : ∀ c, t.counter (.route r c) = s.counter (.route r c)

theorem State.SameAt.refl (r : RouteId) (s : State) : State.SameAt r s s := ⟨rfl, rfl, rfl, fun _ => rfl⟩

theorem State.SameAt.trans {r : RouteId} {s t u : State} (h : State.SameAt r s t) (k : State.SameAt r t u) : State.SameAt r s u :=
  ⟨k.now.trans h.now, k.settings.trans h.settings, k.route.trans h.route, fun c => (k.counter c).trans (h.counter c)⟩

/-- A change of another route. -/
theorem State.sameAt_updRoute {r q : RouteId} (h : r ≠ q) (s : State) (f : Route → Route) : State.SameAt r s (s.updRoute q f) :=
  ⟨rfl, rfl, State.route_updRoute_of_ne s f h, fun _ => rfl⟩

/-- A count at another route. -/
theorem State.sameAt_countRoute {r q : RouteId} (h : r ≠ q) (s : State) (c : RouteCounter) : State.SameAt r s (s.countRoute q c) :=
  ⟨rfl, rfl, rfl, fun d => State.counter_count_of_key_ne s (Counter.key_route_ne h d c)⟩

/-- Where `f` at each other number keeps what stands at `r`, a pass over distinct numbers does at `r` what `f` does there. -/
theorem State.each_sameAt {r : RouteId} {f : State → RouteId → State} (hf : ∀ s q, r ≠ q → State.SameAt r s (f s q))
    (xs : List RouteId) (hr : r ∈ xs) (hd : xs.Nodup) (s : State) :
    ∃ u, State.SameAt r s u ∧ State.SameAt r (f u r) (s.each xs f) := by
  induction xs generalizing s with
  | nil => cases hr
  | cons q xs ih =>
    obtain ⟨hq, hd⟩ := List.nodup_cons.mp hd
    by_cases h : r = q
    · subst h
      refine ⟨s, State.SameAt.refl r s, ?_⟩
      refine State.each_keeps (State.SameAt r (f s r)) xs f (fun t a ha ht => ?_) (f s r) (State.SameAt.refl r _)
      exact State.SameAt.trans ht (hf t a fun e => hq (e ▸ ha))
    · obtain ⟨u, hu, ht⟩ := ih ((List.mem_cons.mp hr).resolve_left h) hd (f s q)
      exact ⟨u, State.SameAt.trans (hf s q h) hu, ht⟩

/-! ## The hand-over and the marker request (R95, R97) -/

/-- A hand-over keeps what stands at other routes. -/
theorem State.sameAt_handOver {r q : RouteId} (h : r ≠ q) (s : State) : State.SameAt r s (s.handOver q) := by
  unfold State.handOver
  dsimp only
  split
  · exact State.SameAt.refl r s
  · exact State.sameAt_updRoute h s _
  · exact State.SameAt.trans (State.sameAt_updRoute h s _) (State.sameAt_countRoute h _ _)
  · exact State.SameAt.refl r s

/-- A hand-over counts MARKERS_BUILT at most. -/
theorem State.counter_handOver_of_key_ne (s : State) (r : RouteId) {c : Counter} (h : c.key ≠ (Counter.route r .markersBuilt).key) :
    (s.handOver r).counter c = s.counter c := by
  unfold State.handOver
  dsimp only
  split
  · rfl
  · rfl
  · exact State.counter_count_of_key_ne _ h
  · rfl

/-- The buffers after the hand-over (R97), the route's regions being `src` and `dst`. -/
def Builder.handedOver (src dst : BitVec 6) (b : Builder) : Builder :=
  match b.ready, b.fill, b.marker with
  | some _, _, _ => b
  | none, .closed, _ => { b with ready := some b.fillSpan, fill := .empty, fillSpan := Span.empty }
  | none, _, some e => { b with ready := some (markerSpan src dst e), marker := none }
  | none, _, none => b

theorem State.route_handOver_self (s : State) (r : RouteId) :
    (s.handOver r).route r =
      { s.route r with bld := (s.route r).bld.handedOver s.settings.localRegion (s.route r).cfg.region } := by
  unfold State.handOver Builder.handedOver
  dsimp only
  cases hready : (s.route r).bld.ready with
  | some sp => rfl
  | none =>
    cases hfill : (s.route r).bld.fill with
    | closed => exact State.route_updRoute_self s r _
    | empty | filling =>
      cases hmarker : (s.route r).bld.marker with
      | none => rfl
      | some e => simp only [State.route_countRoute, State.updBld, State.route_updRoute_self, hfill]

/-- An OPEN span closed ahead of a marker (R95). -/
def Builder.closedAhead (src dst : BitVec 6) (b : Builder) : Builder :=
  if b.fill = .filling then
    { b with fill := .closed, fillSpan := { b.fillSpan with srcRegion := src, dstRegion := dst }, holdStart := none }
  else b

/-- The first part of a marker request: the OPEN span closes and is counted. -/
def State.closeAhead (s : State) (r : RouteId) : State :=
  if (s.route r).bld.fill = .filling then
    (s.updBld r fun b =>
      { b with
        fill := .closed
        fillSpan := { b.fillSpan with srcRegion := s.settings.localRegion, dstRegion := (s.route r).cfg.region }
        holdStart := none }).countRoute r .spansClosedMarker
  else s

theorem State.requestMarker_eq (s : State) (r : RouteId) (e : Word) :
    s.requestMarker r e = ((s.closeAhead r).updBld r fun b => { b with marker := some e }).handOver r := rfl

theorem State.sameAt_closeAhead {r q : RouteId} (h : r ≠ q) (s : State) : State.SameAt r s (s.closeAhead q) := by
  unfold State.closeAhead
  split
  · exact State.SameAt.trans (State.sameAt_updRoute h s _) (State.sameAt_countRoute h _ _)
  · exact State.SameAt.refl r s

/-- A marker request keeps what stands at other routes. -/
theorem State.sameAt_requestMarker {r q : RouteId} (h : r ≠ q) (s : State) (e : Word) : State.SameAt r s (s.requestMarker q e) := by
  rw [State.requestMarker_eq]
  have hclose := State.sameAt_closeAhead h s
  have hmark := State.sameAt_updRoute h (s.closeAhead q) fun x => { x with bld := { x.bld with marker := some e } }
  exact State.SameAt.trans (State.SameAt.trans hclose hmark) (State.sameAt_handOver h _)

theorem State.closeAhead_frame (s : State) (r : RouteId) :
    s.closeAhead r = { s with routes := (s.closeAhead r).routes, counters := (s.closeAhead r).counters } := by
  unfold State.closeAhead
  split <;> rfl

theorem State.route_closeAhead_self (s : State) (r : RouteId) :
    (s.closeAhead r).route r =
      { s.route r with bld := (s.route r).bld.closedAhead s.settings.localRegion (s.route r).cfg.region } := by
  unfold State.closeAhead Builder.closedAhead
  split
  · exact (State.route_countRoute _ _ _ _).trans (State.route_updRoute_self s r _)
  · rfl

/-- A marker request changes only its route and the counters. -/
theorem State.requestMarker_frame (s : State) (r : RouteId) (e : Word) :
    s.requestMarker r e = { s with routes := (s.requestMarker r e).routes, counters := (s.requestMarker r e).counters } := by
  rw [State.requestMarker_eq, State.handOver_frame, State.updBld, State.updRoute, State.setRoute, State.closeAhead_frame]

/-- The buffers after a marker request for epoch `e` (R95, R97). -/
def Builder.markerRequested (src dst : BitVec 6) (e : Word) (b : Builder) : Builder :=
  Builder.handedOver src dst { b.closedAhead src dst with marker := some e }

theorem State.route_requestMarker_self (s : State) (r : RouteId) (e : Word) :
    (s.requestMarker r e).route r =
      { s.route r with bld := (s.route r).bld.markerRequested s.settings.localRegion (s.route r).cfg.region e } := by
  have hset : (s.closeAhead r).settings = s.settings := by rw [State.closeAhead_frame]
  rw [State.requestMarker_eq, State.route_handOver_self, State.updBld, State.route_updRoute_self, State.route_closeAhead_self,
    State.updRoute_settings, hset]
  rfl

/-- The five cases of a marker request: what stands READY and what the FILLING buffer holds. -/
theorem Builder.markerRequested_cases (src dst : BitVec 6) (e : Word) (b : Builder) :
    b.markerRequested src dst e =
      match b.ready, b.fill with
      | none, .empty => { b with ready := some (markerSpan src dst e), marker := none }
      | none, .filling =>
        { b with
          ready := some { b.fillSpan with srcRegion := src, dstRegion := dst }
          fill := .empty, fillSpan := Span.empty, marker := some e, holdStart := none }
      | none, .closed => { b with ready := some b.fillSpan, fill := .empty, fillSpan := Span.empty, marker := some e }
      | some _, .filling =>
        { b with
          fill := .closed, fillSpan := { b.fillSpan with srcRegion := src, dstRegion := dst }, marker := some e
          holdStart := none }
      | some _, _ => { b with marker := some e } := by
  obtain ⟨ctrlQ, classQ, fill, fillSpan, ready, marker, holdStart⟩ := b
  cases ready <;> cases fill <;> rfl

/-- A marker request counts SPANS_CLOSED_MARKER where it closes an OPEN span. -/
theorem State.requestMarker_counted (s : State) (r : RouteId) (e : Word) :
    s.counted (s.requestMarker r e) (if (s.route r).bld.fill = .filling then 1 else 0) (.route r .spansClosedMarker) := by
  have hover : (s.requestMarker r e).counter (.route r .spansClosedMarker) = (s.closeAhead r).counter (.route r .spansClosedMarker) :=
    State.counter_handOver_of_key_ne _ r (Counter.key_route_ne_of_place r (by decide))
  unfold State.closeAhead at hover
  split
  next hfill =>
    rw [if_pos hfill] at hover
    intro _
    rw [hover]
    exact State.counter_count_self _ _
  next hfill =>
    rw [if_neg hfill] at hover
    exact State.counted_zero_of_eq hover

/-! ## The epoch tick at one route (R155) -/

theorem RouteState.inService_iff (x : RouteState) : x.inService = true ↔ x = .acquire ∨ x = .track := by
  cases x <;> decide

/-- The controller of a route that issues the marker of its next epoch at time `now`. -/
def Control.issued (now : Nat) (c : Control) : Control :=
  { c with epoch := seqSucc c.epoch, marker := some { epoch := seqSucc c.epoch, requested := now, seq := none } }

theorem State.tickRoute_of_not_inService (s : State) (r : RouteId) (h : ¬ (s.route r).ctl.state.inService = true) : s.tickRoute r = s :=
  if_neg h

theorem State.tickRoute_of_deferring (s : State) (r : RouteId) (h : (s.route r).ctl.state.inService = true)
    (hd : (s.route r).ctl.paused = true ∨ (s.route r).ctl.marker.isSome = true) : s.tickRoute r = s.countRoute r .epochDeferred :=
  (if_pos h).trans (if_pos hd)

theorem State.tickRoute_of_issuing (s : State) (r : RouteId) (h : (s.route r).ctl.state.inService = true)
    (hd : ¬ ((s.route r).ctl.paused = true ∨ (s.route r).ctl.marker.isSome = true)) :
    s.tickRoute r = (s.updCtl r (Control.issued s.now)).requestMarker r (seqSucc (s.route r).ctl.epoch) :=
  ((if_pos h).trans (if_neg hd)).trans rfl

/-- What a tick does at a route: nothing, a deferral counted, or a marker issued. -/
theorem State.tickRoute_cases (s : State) (r : RouteId) :
    s.tickRoute r = s ∨ s.tickRoute r = s.countRoute r .epochDeferred ∨
      s.tickRoute r = (s.updCtl r (Control.issued s.now)).requestMarker r (seqSucc (s.route r).ctl.epoch) := by
  by_cases h : (s.route r).ctl.state.inService = true
  · by_cases hd : (s.route r).ctl.paused = true ∨ (s.route r).ctl.marker.isSome = true
    · exact .inr (.inl (s.tickRoute_of_deferring r h hd))
    · exact .inr (.inr (s.tickRoute_of_issuing r h hd))
  · exact .inl (s.tickRoute_of_not_inService r h)

/-- The tick at one route keeps what stands at the others. -/
theorem State.sameAt_tickRoute {r q : RouteId} (h : r ≠ q) (s : State) : State.SameAt r s (s.tickRoute q) := by
  obtain hk | hk | hk := s.tickRoute_cases q <;> rw [hk]
  · exact State.SameAt.refl r s
  · exact State.sameAt_countRoute h s _
  · exact State.SameAt.trans (State.sameAt_updRoute h s _) (State.sameAt_requestMarker h _ _)

theorem State.tickRoute_frame (s : State) (r : RouteId) :
    s.tickRoute r = { s with routes := (s.tickRoute r).routes, counters := (s.tickRoute r).counters } := by
  obtain hk | hk | hk := s.tickRoute_cases r <;> rw [hk]
  · rfl
  · rw [State.requestMarker_frame]
    rfl

/-- The ticks at all routes change only routes and counters. -/
theorem State.eachTick_frame (s : State) (xs : List RouteId) :
    s.each xs State.tickRoute =
      { s with routes := (s.each xs State.tickRoute).routes, counters := (s.each xs State.tickRoute).counters } := by
  refine State.each_keeps (fun t => t = { s with routes := t.routes, counters := t.counters }) xs _ (fun t q _ ht => ?_) s rfl
  rw [State.tickRoute_frame, ht]

/-- The route and the close count after a tick at a route that issues. -/
theorem State.tickRoute_issues (s : State) (r : RouteId) (h : (s.route r).ctl.state.inService = true)
    (hp : (s.route r).ctl.paused = false) (hm : (s.route r).ctl.marker = none) :
    (s.tickRoute r).route r =
        { s.route r with
          ctl := (s.route r).ctl.issued s.now
          bld := (s.route r).bld.markerRequested s.settings.localRegion (s.route r).cfg.region (seqSucc (s.route r).ctl.epoch) } ∧
      s.counted (s.tickRoute r) (if (s.route r).bld.fill = .filling then 1 else 0) (.route r .spansClosedMarker) := by
  have hroute : (s.updCtl r (Control.issued s.now)).route r = { s.route r with ctl := (s.route r).ctl.issued s.now } :=
    State.route_updRoute_self s r _
  have hcount := State.requestMarker_counted (s.updCtl r (Control.issued s.now)) r (seqSucc (s.route r).ctl.epoch)
  rw [s.tickRoute_of_issuing r h (by simp [hp, hm]), State.route_requestMarker_self, hroute]
  rw [hroute] at hcount
  exact ⟨rfl, hcount⟩

/-- A count carries over to states that agree at its route. -/
theorem State.counted_of_sameAt {r : RouteId} {s s' t t' : State} (hs : State.SameAt r s s') (ht : State.SameAt r t t') {n : Nat}
    {c : RouteCounter} (h : s'.counted t n (.route r c)) : s.counted t' n (.route r c) := by
  unfold State.counted at h ⊢
  rwa [ht.counter, ← hs.counter]

/-! ## The epoch tick (R39, R154) -/

/-- The state in which a tick comes to the routes: the tick recorded, an armed turn performed. -/
def State.tickRecorded (s : State) : State :=
  { s with
    lastTick := s.now, armed := false
    active := if s.armed then s.active.other else s.active
    generation := if s.armed then s.generation + 1 else s.generation }

theorem State.policyTurn_tickRecorded (s : State) : { s.policyTurn with lastTick := s.now } = s.tickRecorded := by
  unfold State.policyTurn State.tickRecorded
  by_cases h : s.armed = true
  · rw [if_pos h, if_pos h, if_pos h]
  · rw [if_neg h, if_neg h, if_neg h]
    exact congrArg (fun b => { s with lastTick := s.now, armed := b }) (Bool.eq_false_iff.mpr h)

theorem State.sameAt_tickRecorded (r : RouteId) (s : State) : State.SameAt r s s.tickRecorded := ⟨rfl, rfl, rfl, fun _ => rfl⟩

theorem exec_epochTick_of_early {s : State} (h : s.now < s.lastTick + s.settings.epochPeriod * 1000) : exec .epochTick s = .next s :=
  if_neg (by simpa [State.tickDue] using h)

theorem exec_epochTick_of_due {s : State} (h : s.lastTick + s.settings.epochPeriod * 1000 ≤ s.now) :
    exec .epochTick s = .next (s.tickRecorded.each allRoutes State.tickRoute) := by
  rw [← State.policyTurn_tickRecorded]
  exact if_pos (by simpa [State.tickDue] using h)

/-- Settles O34: the tick's work at a route depends only on what stands there, and the ticks at the other routes keep that. -/
theorem epochTickTurnsAndMarks : Obligations.EpochTickTurnsAndMarks := by
  intro s
  refine ⟨exec_epochTick_of_early, fun hdue => ⟨_, exec_epochTick_of_due hdue, State.eachTick_frame _ _, fun r => ?_⟩⟩
  obtain ⟨u, hu, ht⟩ := State.each_sameAt (r := r) (fun s q h => State.sameAt_tickRoute h s) allRoutes (List.mem_finRange r)
    (List.nodup_finRange 8) s.tickRecorded
  have hsu := (State.sameAt_tickRecorded r s).trans hu
  have hroute := hsu.route
  intro x e inService closed
  have hserv : (u.route r).ctl.state.inService = true ↔ inService := by
    rw [hroute]
    exact RouteState.inService_iff x.ctl.state
  refine ⟨fun hout => ?_, fun hin hdefer => ?_, fun hin hp hm => ?_⟩
  · rw [ht.route, u.tickRoute_of_not_inService r (mt hserv.mp hout), hroute]
  · have htick := u.tickRoute_of_deferring r (hserv.mpr hin) (by rwa [hroute])
    refine ⟨by rw [ht.route, htick, State.route_countRoute, hroute], State.counted_of_sameAt hsu ht ?_⟩
    rw [htick]
    exact State.count_counted u _
  · obtain ⟨hafter, hcount⟩ := u.tickRoute_issues r (hserv.mpr hin) (by rwa [hroute]) (by rwa [hroute])
    rw [hroute] at hcount
    rw [ht.route, hafter, hroute, hsu.now, hsu.settings, Builder.markerRequested_cases]
    exact ⟨rfl, rfl, rfl, rfl, State.counted_of_sameAt hsu ht hcount, rfl⟩

/-! ## The end of a parcel's execution (R177, R178) -/

/-- A placed frame counts CLUSTER_OUT_DROP at most. -/
theorem State.counter_placeOut_of_key_ne (s : State) (d : Addr) (p : List Byte) {c : Counter}
    (h : c.key ≠ (Counter.ports .clusterOutDrop).key) : (s.placeOut d p).counter c = s.counter c := by
  unfold State.placeOut
  split
  · rfl
  · exact State.counter_count_of_key_ne s h

/-- An event that latches nothing sends no alert (R189). -/
theorem State.alertFrom_of_latches_eq {b s : State} (h : s.latches = b.latches) : b.alertFrom s = s := by
  unfold State.alertFrom
  rw [if_pos]
  rw [h, BitVec.and_not_self]
  exact BitVec.zero_and

theorem State.countParcel_frame (s : State) (v : ParcelVerdict) :
    s.countParcel v = { s with counters := (s.countParcel v).counters } := by
  cases v <;> rfl

/-- The counts of an executed parcel are made on those of `c`: with the status parcel queued and the parcel gone, it is answered. -/
theorem State.answered_of_countParcel {c u t : State} {q : List OutFrame} {p : Parcel} {rest : List Parcel} {v : ParcelVerdict}
    {discard : Bool} {results : List Byte} (hq : t.outQ = queuedOut q p.src (statusPayload p.command p.tag v discard results))
    (hp : t.parcels = rest) (ht : t.counters = (u.countParcel v).counters)
    (hu : ∀ m, u.counter (.management m) = c.counter (.management m)) : c.answered t q p rest v discard results := by
  have hre : (Counter.management .parcelsRefused).key ≠ (Counter.management .parcelsExecuted).key := by decide
  have hpe : (Counter.management .parcelsPartial).key ≠ (Counter.management .parcelsExecuted).key := by decide
  have hpr : (Counter.management .parcelsPartial).key ≠ (Counter.management .parcelsRefused).key := by decide
  refine ⟨hq, hp, ?_⟩
  simp only [State.counter_congr ht, ← hu]
  cases v <;>
    simp only [State.countParcel, ParcelVerdict.counter, State.counter_count_self, State.counter_count_of_key_ne _ hre,
      State.counter_count_of_key_ne _ hpe, State.counter_count_of_key_ne _ hpr, State.counter_count_of_key_ne _ hre.symm,
      State.counter_count_of_key_ne _ hpe.symm, State.counter_count_of_key_ne _ hpr.symm, Config.counterMax, and_self]

/-- The end of a parcel whose command latched nothing changes only the output queue, the parcel queue and the counters. -/
theorem State.finish_frame {s : State} {p : Parcel} {rest : List Parcel} {y : Reply} (hl : y.state.latches = s.latches)
    (hp : y.state.parcels = p :: rest) :
    s.finish p y =
      { y.state with outQ := (s.finish p y).outQ, parcels := rest, counters := (s.finish p y).counters } := by
  unfold State.finish
  dsimp only
  rw [State.alertFrom_of_latches_eq hl, State.countParcel_frame, State.placeOut_frame]
  dsimp only
  rw [hp, List.drop_one, List.tail_cons]

/-- The end of a parcel whose command latched nothing and left the output queue and the counters answers it (R178). -/
theorem State.finish_answered {s : State} {p : Parcel} {rest : List Parcel} {y : Reply} (hl : y.state.latches = s.latches)
    (hp : y.state.parcels = p :: rest) (hq : y.state.outQ = s.outQ) (hc : y.state.counters = s.counters) :
    s.answered (s.finish p y) s.outQ p rest y.verdict y.discard y.results := by
  refine State.answered_of_countParcel (u := y.state.placeOut p.src (statusPayload p.command p.tag y.verdict y.discard y.results))
    ?_ (by rw [State.finish_frame hl hp]) ?_ fun m => ?_
  · unfold State.finish
    dsimp only
    rw [State.alertFrom_of_latches_eq hl, State.countParcel_frame]
    exact (State.placeOut_outQ _ _ _).trans (by rw [hq]; rfl)
  · unfold State.finish
    rw [State.alertFrom_of_latches_eq hl]
  · exact (State.counter_placeOut_of_key_ne _ _ _ (by cases m <;> decide)).trans (State.counter_congr hc _)

/-- The end of a parcel whose command changed the armed flag and the table cursor alone. -/
theorem State.finish_of_cursor {s : State} {p : Parcel} {rest : List Parcel} {y : Reply} {a : Bool} {c : Cursor}
    (hp : s.parcels = p :: rest) (hy : y.state = { s with armed := a, cursor := c }) :
    s.finish p y =
        { s with
          armed := a, cursor := c, outQ := (s.finish p y).outQ, parcels := rest, counters := (s.finish p y).counters } ∧
      s.answered (s.finish p y) s.outQ p rest y.verdict y.discard y.results := by
  have hl : y.state.latches = s.latches := by rw [hy]
  have hq : y.state.parcels = p :: rest := by rw [hy, hp]
  refine ⟨(State.finish_frame hl hq).trans ?_, State.finish_answered hl hq (by rw [hy]) (by rw [hy])⟩
  rw [hy]

/-- The parcel at the head of the queue reads to a command the row takes. -/
theorem State.runParcel_of_read {s : State} {p : Parcel} {rest : List Parcel} {run : Command → Option Reply} {c : Command} {y : Reply}
    (hp : s.parcels = p :: rest) (hc : readParcel p.bytes = some c) (hy : run c = some y) : s.runParcel run = .next (s.finish p y) := by
  unfold State.runParcel
  rw [hp]
  dsimp only
  rw [hc, Option.bind_some, hy]

/-! ## SELECT and TURN (R38, R180) -/

theorem exec_select_of_read {s : State} {p : Parcel} {rest : List Parcel} {tn : TableName} {w : Bool} {i : Nat}
    (hp : s.parcels = p :: rest) (hc : readParcel p.bytes = some (.select tn w i)) :
    exec .select s = .next (s.finish p (s.runSelect tn w i)) :=
  State.runParcel_of_read hp hc rfl

theorem exec_turn_of_read {s : State} {p : Parcel} {rest : List Parcel} (hp : s.parcels = p :: rest)
    (hc : readParcel p.bytes = some .turn) : exec .turn s = .next (s.finish p s.runTurn) :=
  State.runParcel_of_read hp hc rfl

/-- SELECT changes only the cursor. -/
theorem State.runSelect_frame (s : State) (tn : TableName) (w : Bool) (i : Nat) :
    (s.runSelect tn w i).state = { s with cursor := (s.runSelect tn w i).state.cursor } := by
  unfold State.runSelect
  split
  · rfl
  · split <;> rfl

theorem State.runSelect_of_outOfRange (s : State) {tn : TableName} (w : Bool) {i : Nat} (h : tn.entries ≤ i) :
    s.runSelect tn w i = s.refuse .outOfRange :=
  if_pos h

theorem State.runSelect_of_wrongMode (s : State) {i : Nat} (h : i < TableName.policyActive.entries) :
    s.runSelect .policyActive true i = s.refuse .wrongMode :=
  (if_neg (Nat.not_le.mpr h)).trans (if_pos ⟨rfl, rfl⟩)

theorem State.runSelect_of_taken (s : State) {tn : TableName} {w : Bool} {i : Nat} (h : i < tn.entries)
    (hm : tn ≠ .policyActive ∨ w = false) :
    s.runSelect tn w i =
      { state := { s with cursor := { table := tn, index := i, pos := 0, write := w, staged := [] } }
        verdict := .done
        discard := !s.cursor.staged.isEmpty
        results := toBE 1 tn.code ++ toBE 1 (bitByte w 0) ++ toBE 2 i } := by
  have hmode : ¬ (tn = .policyActive ∧ w = true) := by
    rintro ⟨rfl, rfl⟩
    simp at hm
  exact (if_neg (Nat.not_le.mpr h)).trans (if_neg hmode)

/-- TURN changes only the flag and the cursor, and leaves the turn armed. -/
theorem State.runTurn_frame (s : State) : s.runTurn.state = { s with armed := true, cursor := s.runTurn.state.cursor } := by
  unfold State.runTurn
  split
  next harmed => exact congrArg (fun b => { s with armed := b }) harmed
  next => rfl

/-- The results of TURN with the turn armed. -/
theorem State.turnResults_of_armed {s : State} (h : s.armed = true) :
    s.turnResults = toBE 4 s.generation.toNat ++ [if s.active = .a then 0 else 1, 1, 0, 0] := by
  unfold State.turnResults
  rw [h, List.append_assoc, List.append_assoc]
  cases s.active <;> rfl

/-- TURN with the flag set: the cursor stays, and it is refused. -/
theorem State.runTurn_of_armed {s : State} (h : s.armed = true) :
    s.runTurn.state.cursor = s.cursor ∧ s.runTurn.verdict = .refused .turnPending ∧ s.runTurn.discard = false ∧
      s.runTurn.results = toBE 4 s.generation.toNat ++ [if s.active = .a then 0 else 1, 1, 0, 0] := by
  unfold State.runTurn
  rw [if_pos h]
  exact ⟨rfl, rfl, rfl, State.turnResults_of_armed h⟩

/-- TURN with the flag clear: words staged on POLICY_STANDBY are discarded, and it is done. -/
theorem State.runTurn_of_clear {s : State} (h : s.armed = false) :
    s.runTurn.state.cursor =
        (if s.cursor.table = .policyStandby ∧ s.cursor.staged ≠ [] then { s.cursor with pos := 0, staged := [] } else s.cursor) ∧
      s.runTurn.verdict = .done ∧ s.runTurn.discard = decide (s.cursor.table = .policyStandby ∧ s.cursor.staged ≠ []) ∧
      s.runTurn.results = toBE 4 s.generation.toNat ++ [if s.active = .a then 0 else 1, 1, 0, 0] := by
  have hdrop : (s.cursor.table == .policyStandby && !s.cursor.staged.isEmpty) =
      decide (s.cursor.table = .policyStandby ∧ s.cursor.staged ≠ []) := by
    rw [Bool.eq_iff_iff]
    simp
  unfold State.runTurn
  rw [if_neg (by rw [h]; decide), hdrop]
  refine ⟨?_, rfl, rfl, State.turnResults_of_armed rfl⟩
  simp only [decide_eq_true_eq]

/-- Settles O43: SELECT and TURN change only the cursor and the armed flag, and the end of the parcel answers them. -/
theorem selectAndTurnJudged : Obligations.SelectAndTurnJudged := by
  constructor
  · intro s p rest tn w i hp hc n
    have hn : n = tn.entries := by cases tn <;> rfl
    obtain ⟨hframe, hanswered⟩ := State.finish_of_cursor hp (s.runSelect_frame tn w i)
    have hcursor := congrArg State.cursor hframe
    refine ⟨s.finish p (s.runSelect tn w i), exec_select_of_read hp hc, ?_, fun hi => ?_, fun hi ht hw => ?_, fun hi hm => ?_⟩
    · rw [hcursor]
      exact hframe
    · rw [s.runSelect_of_outOfRange w (hn ▸ hi)] at hanswered hcursor ⊢
      exact ⟨hcursor, hanswered⟩
    · subst ht hw
      rw [s.runSelect_of_wrongMode (hn ▸ hi)] at hanswered hcursor ⊢
      exact ⟨hcursor, hanswered⟩
    · rw [s.runSelect_of_taken (hn ▸ hi) hm] at hanswered hcursor ⊢
      refine ⟨hcursor, ?_⟩
      cases w <;> exact hanswered
  · intro s p rest hp hc drops results
    obtain ⟨hframe, hanswered⟩ := State.finish_of_cursor hp s.runTurn_frame
    have hcursor := congrArg State.cursor hframe
    refine ⟨s.finish p s.runTurn, exec_turn_of_read hp hc, ?_, fun harmed => ?_, fun hclear => ?_⟩
    · rw [hcursor]
      exact hframe
    · obtain ⟨hkept, hverdict, hdiscard, hresults⟩ := State.runTurn_of_armed harmed
      rw [hverdict, hdiscard, hresults] at hanswered
      exact ⟨hcursor.trans hkept, hanswered⟩
    · obtain ⟨hmoved, hverdict, hdiscard, hresults⟩ := State.runTurn_of_clear hclear
      rw [hverdict, hdiscard, hresults] at hanswered
      exact ⟨hcursor.trans hmoved, hanswered⟩

end Sys2Proof.Machine
end

section
/-! SUPPORT. What the shared updates read back as at a route, a record and a counter, and how a pass over a list acts on records:
the rules that the statements on segments, grants, settlement, rebase and close rest on. -/

namespace Sys2Proof.Machine

/-! ## Routes after an update -/

@[simp] theorem State.route_updBld_self (s : State) (r : RouteId) (f : Builder → Builder) :
    (s.updBld r f).route r = { s.route r with bld := f (s.route r).bld } := State.route_updRoute_self s r _

@[simp] theorem State.route_updTx_self (s : State) (r : RouteId) (f : Transmit → Transmit) :
    (s.updTx r f).route r = { s.route r with tx := f (s.route r).tx } := State.route_updRoute_self s r _

@[simp] theorem State.route_updCtl_self (s : State) (r : RouteId) (f : Control → Control) :
    (s.updCtl r f).route r = { s.route r with ctl := f (s.route r).ctl } := State.route_updRoute_self s r _

@[simp] theorem State.route_updPace_self (s : State) (r : RouteId) (f : Pacing → Pacing) :
    (s.updPace r f).route r = { s.route r with pace := f (s.route r).pace } := State.route_updRoute_self s r _

@[simp] theorem State.route_updInb_self (s : State) (r : RouteId) (f : Inbound → Inbound) :
    (s.updInb r f).route r = { s.route r with inb := f (s.route r).inb } := State.route_updRoute_self s r _

theorem State.route_updBld_of_ne (s : State) {r q : RouteId} (f : Builder → Builder) (h : q ≠ r) :
    (s.updBld r f).route q = s.route q := State.route_updRoute_of_ne s _ h

theorem State.route_updTx_of_ne (s : State) {r q : RouteId} (f : Transmit → Transmit) (h : q ≠ r) :
    (s.updTx r f).route q = s.route q := State.route_updRoute_of_ne s _ h

theorem State.route_updCtl_of_ne (s : State) {r q : RouteId} (f : Control → Control) (h : q ≠ r) :
    (s.updCtl r f).route q = s.route q := State.route_updRoute_of_ne s _ h

theorem State.route_updPace_of_ne (s : State) {r q : RouteId} (f : Pacing → Pacing) (h : q ≠ r) :
    (s.updPace r f).route q = s.route q := State.route_updRoute_of_ne s _ h

theorem State.route_updInb_of_ne (s : State) {r q : RouteId} (f : Inbound → Inbound) (h : q ≠ r) :
    (s.updInb r f).route q = s.route q := State.route_updRoute_of_ne s _ h

/-- Routes are read from the route table alone. -/
theorem State.route_congr {s t : State} (h : t.routes = s.routes) (r : RouteId) : t.route r = s.route r := by
  simp only [State.route, h]

/-- Records are read from the record table alone. -/
theorem State.record?_congr {s t : State} (h : t.records = s.records) (n : Nat) : t.record? n = s.record? n := by
  simp only [State.record?, h]

@[simp] theorem State.route_latch (s : State) (c : EventClass) (q : RouteId) : (s.latch c).route q = s.route q := rfl

@[simp] theorem State.route_startLong (s : State) (f : Frame) (q : RouteId) : (s.startLong f).route q = s.route q := rfl

@[simp] theorem State.updRecord_routes (s : State) (n : Nat) (f : Record → Record) : (s.updRecord n f).routes = s.routes := by
  rw [State.updRecord_frame]

@[simp] theorem State.route_updRecord (s : State) (n : Nat) (f : Record → Record) (q : RouteId) :
    (s.updRecord n f).route q = s.route q := State.route_congr (State.updRecord_routes s n f) q

@[simp] theorem State.updRecord_counters (s : State) (n : Nat) (f : Record → Record) : (s.updRecord n f).counters = s.counters := by
  rw [State.updRecord_frame]

@[simp] theorem State.updRecord_pool (s : State) (n : Nat) (f : Record → Record) : (s.updRecord n f).pool = s.pool := by
  rw [State.updRecord_frame]

/-! ## Records after an update of a route, a count or a latch -/

@[simp] theorem State.record?_updBld (s : State) (r : RouteId) (f : Builder → Builder) (n : Nat) :
    (s.updBld r f).record? n = s.record? n := rfl

@[simp] theorem State.record?_updTx (s : State) (r : RouteId) (f : Transmit → Transmit) (n : Nat) :
    (s.updTx r f).record? n = s.record? n := rfl

@[simp] theorem State.record?_count (s : State) (c : Counter) (n : Nat) : (s.count c).record? n = s.record? n := rfl

@[simp] theorem State.record?_countRoute (s : State) (r : RouteId) (c : RouteCounter) (n : Nat) :
    (s.countRoute r c).record? n = s.record? n := rfl

/-! ## Slots -/

/-- A change of the slot on a route is read there. -/
theorem Record.slotOn_updSlot (x : Record) (r : RouteId) (f : Slot → Slot) (hf : ∀ sl, (f sl).route = sl.route) :
    (x.updSlot r f).slotOn r = (x.slotOn r).map f := by
  obtain ⟨slots, hslots⟩ : ∃ slots, x.slots = slots := ⟨_, rfl⟩
  simp only [Record.slotOn, Record.updSlot, hslots]
  clear hslots
  induction slots with
  | nil => rfl
  | cons sl slots ih =>
    by_cases h : sl.route = r
    · simp [h, hf]
    · simp only [List.map_cons, if_neg h, List.find?_cons, beq_eq_false_iff_ne.mpr h, ih]

/-- The state of the changed slot. -/
theorem Record.slotState_updSlot (x : Record) (r : RouteId) (f : Slot → Slot) (hf : ∀ sl, (f sl).route = sl.route) :
    (x.updSlot r f).slotState r = (x.slotOn r).map fun sl => (f sl).state := by
  rw [Record.slotState, Record.slotOn_updSlot x r f hf, Option.map_map]
  rfl

/-- A change of the slot on a route that keeps its state. -/
theorem Record.slotState_updSlot_of_state (x : Record) (r : RouteId) (f : Slot → Slot)
    (hf : ∀ sl, (f sl).route = sl.route) (hs : ∀ sl, (f sl).state = sl.state) : (x.updSlot r f).slotState r = x.slotState r := by
  rw [Record.slotState_updSlot x r f hf, Record.slotState]
  simp only [hs]

/-- The slot on a route is one of the record's slots, and on that route. -/
theorem Record.slotOn_eq_some {x : Record} {r : RouteId} {sl : Slot} (h : x.slotOn r = some sl) : sl ∈ x.slots ∧ sl.route = r :=
  ⟨List.mem_of_find?_eq_some h, by simpa using List.find?_some h⟩

/-! ## A pass over records -/

/-- A pass of `F` over the numbers `ns`, where each turn does `G` to its record and leaves the others: `G`, of which a second turn
does no more, has been done to the records of `ns`. `p` is what `F` needs of the state, and keeps. -/
theorem State.record?_each {α : Type} (p : State → Prop) {F : State → α → State} {key : α → Nat} {G : Record → Option Record}
    (hp : ∀ s a, p s → p (F s a))
    (hF : ∀ s a m, p s → (F s a).record? m = if m = key a then (s.record? m).bind G else s.record? m)
    (hG : ∀ x, (G x).bind G = G x) (as : List α) (s : State) (hs : p s) (m : Nat) :
    (s.each as F).record? m = if m ∈ as.map key then (s.record? m).bind G else s.record? m := by
  induction as generalizing s with
  | nil => simp [State.each]
  | cons a as ih =>
    have hcons : s.each (a :: as) F = (F s a).each as F := rfl
    rw [hcons, ih (F s a) (hp s a hs), hF s a m hs]
    by_cases ha : m = key a
    · subst ha
      have htwice : ((s.record? (key a)).bind G).bind G = (s.record? (key a)).bind G := by
        cases s.record? (key a) with
        | none => rfl
        | some x => exact hG x
      simp [htwice]
    · simp [ha]

/-- Every record after a change of record `n`. -/
theorem State.record?_updRecord (s : State) (n : Nat) (f : Record → Record) (m : Nat) :
    (s.updRecord n f).record? m = if m = n then (s.record? m).map f else s.record? m := by
  by_cases h : m = n
  · subst h
    rw [if_pos rfl, State.record?_updRecord_self]
  · rw [if_neg h, State.record?_updRecord_of_ne s f h]

/-! ## Freeing -/

/-- What the freeing test leaves of a record (R65). -/
def Record.unlessFreeable (x : Record) : Option Record := if x.freeable then none else some x

theorem State.record?_freeStep (s : State) (n m : Nat) :
    (s.freeStep n).record? m = if m = n then (s.record? m).bind Record.unlessFreeable else s.record? m := by
  by_cases hm : m = n
  · subst hm
    rw [if_pos rfl]
    unfold State.freeStep
    split
    next hnone => rw [hnone, Option.bind_none]
    next x hx =>
      rw [hx, Option.bind_some, Record.unlessFreeable]
      split
      · exact Table.find_erase_self _ _
      · exact hx
  · rw [if_neg hm]
    unfold State.freeStep
    split
    · rfl
    · split
      · exact Table.find_erase_of_ne _ hm
      · rfl

theorem State.freeStep_routes (s : State) (n : Nat) : (s.freeStep n).routes = s.routes := by
  rw [State.freeStep_frame]

@[simp] theorem State.freeStep_counters (s : State) (n : Nat) : (s.freeStep n).counters = s.counters := by
  rw [State.freeStep_frame]

/-- A loss of a queue item changes only the record table, the key index and the extent pool. -/
theorem State.loseItem_frame (s : State) (n : Nat) :
    s.loseItem n =
      { s with records := (s.loseItem n).records, keyIndex := (s.loseItem n).keyIndex, pool := (s.loseItem n).pool } := by
  unfold State.loseItem
  rw [State.freeStep_frame, State.updRecord_frame]

/-- A loss of a span reference changes only the record table, the key index and the extent pool. -/
theorem State.loseRef_frame (s : State) (n : Nat) :
    s.loseRef n =
      { s with records := (s.loseRef n).records, keyIndex := (s.loseRef n).keyIndex, pool := (s.loseRef n).pool } := by
  unfold State.loseRef
  rw [State.freeStep_frame, State.updRecord_frame]

/-- A record that loses a queue item, and is free with it where R65 says so. -/
theorem State.record?_loseItem (s : State) (n m : Nat) :
    (s.loseItem n).record? m =
      if m = n then (s.record? m).bind fun x => Record.unlessFreeable { x with items := x.items - 1 } else s.record? m := by
  rw [State.loseItem, State.record?_freeStep, State.record?_updRecord]
  by_cases hm : m = n
  · simp only [if_pos hm]
    cases s.record? m <;> rfl
  · simp only [if_neg hm]

/-- A record that loses a span reference, and is free with it where R65 says so. -/
theorem State.record?_loseRef (s : State) (n m : Nat) :
    (s.loseRef n).record? m =
      if m = n then (s.record? m).bind fun x => Record.unlessFreeable { x with refs := x.refs - 1 } else s.record? m := by
  rw [State.loseRef, State.record?_freeStep, State.record?_updRecord]
  by_cases hm : m = n
  · simp only [if_pos hm]
    cases s.record? m <;> rfl
  · simp only [if_neg hm]

end Sys2Proof.Machine
end

section
/-! SUPPORT. The statements of the Span Builder's placements (R59, R85 to R94): the hold test and the placing of one segment as
they act on their route, on the segment's record and on the counts, then the two obligations. -/

namespace Sys2Proof.Machine

/-! ## The hold test (R94) -/

/-- Packable work is read from the route's queues and the record table. -/
theorem State.nextItem_congr {s t : State} {r : RouteId} (hq : (t.route r).bld.ctrlQ = (s.route r).bld.ctrlQ)
    (hc : (t.route r).bld.classQ = (s.route r).bld.classQ) (hr : t.records = s.records) : t.nextItem r = s.nextItem r := by
  have hpack : t.packable r = s.packable r := funext fun n => by rw [State.packable, State.packable, State.record?_congr hr]
  have hfirst : t.firstPackable r = s.firstPackable r :=
    funext fun q => by rw [State.firstPackable, State.firstPackable, hpack]
  unfold State.nextItem
  rw [hq, hc, hfirst]

theorem State.holdPassed_eq (s : State) (r : RouteId) : s.holdPassed r = s.holdOver (s.route r).bld := rfl

/-- The builder of a FILLING span that closes by hold is that of `spanClosed`. -/
theorem State.route_closeSpan_self (s : State) (r : RouteId) :
    (s.closeSpan r).route r = { s.route r with bld := s.spanClosed r (s.route r).bld } := by
  unfold State.closeSpan
  rw [State.route_handOver_self, State.route_updBld_self]
  unfold Builder.handedOver State.spanClosed
  cases hready : (s.route r).bld.ready with
  | some sp => simp
  | none => simp

theorem State.route_holdTest_self (s : State) (r : RouteId) :
    (s.holdTest r).route r =
      { s.route r with
        bld := if s.holdOver (s.route r).bld && !s.hasWork r then s.spanClosed r (s.route r).bld else (s.route r).bld } := by
  unfold State.holdTest
  rw [State.holdPassed_eq]
  by_cases h : (s.holdOver (s.route r).bld && !s.hasWork r) = true
  · rw [if_pos h, if_pos h, State.route_closeSpan_self]
    rfl
  · rw [if_neg h, if_neg h]

/-- The hold test keeps what stands at other routes. -/
theorem State.sameAt_holdTest {r q : RouteId} (h : r ≠ q) (s : State) : State.SameAt r s (s.holdTest q) := by
  unfold State.holdTest State.closeSpan
  split
  · exact State.SameAt.trans (State.SameAt.trans (State.sameAt_countRoute h s _) (State.sameAt_updRoute h _ _))
      (State.sameAt_handOver h _)
  · exact State.SameAt.refl r s

/-- A closing span leaves the route's queues as they were. -/
theorem State.spanClosed_queues (s : State) (r : RouteId) (b : Builder) :
    (s.spanClosed r b).ctrlQ = b.ctrlQ ∧ (s.spanClosed r b).classQ = b.classQ := by
  unfold State.spanClosed
  dsimp only
  split <;> exact ⟨rfl, rfl⟩

/-- The hold test takes no work. -/
theorem State.hasWork_holdTest (s : State) (r : RouteId) : (s.holdTest r).hasWork r = s.hasWork r := by
  obtain ⟨hctrl, hclass⟩ := State.spanClosed_queues s r (s.route r).bld
  have hrecords : (s.holdTest r).records = s.records := by rw [State.holdTest_frame]
  unfold State.hasWork
  rw [State.nextItem_congr _ _ hrecords] <;> rw [State.route_holdTest_self] <;> dsimp only <;> split
  · exact hctrl
  · rfl
  · exact hclass
  · rfl

/-- The hold test counts SPANS_CLOSED_HOLD and MARKERS_BUILT at most. -/
theorem State.counter_holdTest_of_key_ne (s : State) (r : RouteId) {c : Counter}
    (hh : c.key ≠ (Counter.route r .spansClosedHold).key) (hm : c.key ≠ (Counter.route r .markersBuilt).key) :
    (s.holdTest r).counter c = s.counter c := by
  unfold State.holdTest State.closeSpan
  split
  · rw [State.counter_handOver_of_key_ne _ r hm]
    exact State.counter_count_of_key_ne s hh
  · rfl

/-- The hold test counts SPANS_CLOSED_HOLD where the span closes. -/
theorem State.holdTest_counted (s : State) (r : RouteId) :
    s.counted (s.holdTest r) (if s.holdOver (s.route r).bld && !s.hasWork r then 1 else 0) (.route r .spansClosedHold) := by
  unfold State.holdTest State.closeSpan
  rw [State.holdPassed_eq]
  split
  · intro _
    rw [State.counter_handOver_of_key_ne _ r (Counter.key_route_ne_of_place r (by decide))]
    exact State.counter_count_self s _
  · exact State.counted_zero_of_eq rfl

/-- The end of a placement that leads from `s` to `u` and leaves builder `b` at its route: the hold test. -/
theorem State.holdTest_after {s u : State} {r : RouteId} {b : Builder} (hn : u.now = s.now) (hs : u.settings = s.settings)
    (hr : u.route r = { s.route r with bld := b })
    (hc : u.counter (.route r .spansClosedHold) = s.counter (.route r .spansClosedHold)) :
    let closes := s.holdOver b && !(u.holdTest r).hasWork r
    (u.holdTest r).route r = { s.route r with bld := if closes then s.spanClosed r b else b } ∧
      s.counted (u.holdTest r) (if closes then 1 else 0) (.route r .spansClosedHold) := by
  have hover : u.holdOver (u.route r).bld = s.holdOver b := by
    rw [hr]
    unfold State.holdOver
    rw [hn, hs]
  have hclosed : u.spanClosed r (u.route r).bld = s.spanClosed r b := by
    unfold State.spanClosed
    rw [hr, hs]
  have hcounted := State.holdTest_counted u r
  rw [State.hasWork_holdTest, ← hover]
  refine ⟨?_, fun hle => ?_⟩
  · rw [State.route_holdTest_self, hclosed, hr]
  · rw [← hc] at hle ⊢
    exact hcounted hle

/-! ## One segment placed (R85, R92) -/

/-- The builder once an entry's segment joined the FILLING span, its record on the record list (R85, R92). -/
def Builder.tookEntry (b : Builder) (now : Nat) (e : SegEntry) (bytes : List Byte) : Builder :=
  { b with
    fill := .filling
    holdStart := if b.fill = .empty then some now else b.holdStart
    fillSpan :=
      { b.current with
        area := b.current.area ++ bytes
        segs := b.current.segs ++ [e]
        recs := if e.record ∈ b.current.recs then b.current.recs else b.current.recs ++ [e.record] } }

theorem State.listRecord_frame (s : State) (r : RouteId) (n : Nat) :
    s.listRecord r n = { s with routes := (s.listRecord r n).routes, records := (s.listRecord r n).records } := by
  unfold State.listRecord
  split
  · rfl
  · rw [State.updRecord_frame]
    rfl

/-- A placed segment changes only its route and the record table. -/
theorem State.placeEntry_frame (s : State) (r : RouteId) (e : SegEntry) (bytes : List Byte) :
    s.placeEntry r e bytes =
      { s with routes := (s.placeEntry r e bytes).routes, records := (s.placeEntry r e bytes).records } := by
  unfold State.placeEntry
  rw [State.listRecord_frame]
  rfl

theorem State.route_placeEntry_self (s : State) (r : RouteId) (e : SegEntry) (bytes : List Byte) :
    (s.placeEntry r e bytes).route r = { s.route r with bld := (s.route r).bld.tookEntry s.now e bytes } := by
  unfold State.placeEntry State.listRecord
  by_cases h : e.record ∈ (s.route r).bld.current.recs
  · simp [Builder.append, Builder.tookEntry, h]
  · simp [Builder.append, Builder.tookEntry, h]

theorem State.route_placeEntry_of_ne (s : State) {r q : RouteId} (e : SegEntry) (bytes : List Byte) (h : q ≠ r) :
    (s.placeEntry r e bytes).route q = s.route q := by
  have happend : (s.updBld r fun b => b.append s.now e bytes).route q = s.route q := State.route_updBld_of_ne s _ h
  unfold State.placeEntry State.listRecord
  split
  · exact happend
  · rw [State.route_updRecord]
    exact (State.route_updBld_of_ne _ _ h).trans happend

/-- The reference count of a placed segment's record rises where the span had not listed it (R92). -/
theorem State.record?_placeEntry (s : State) (r : RouteId) (e : SegEntry) (bytes : List Byte) (m : Nat) :
    (s.placeEntry r e bytes).record? m =
      if m = e.record then
        (s.record? m).map fun x => { x with refs := if e.record ∈ (s.route r).bld.current.recs then x.refs else x.refs + 1 }
      else s.record? m := by
  unfold State.placeEntry State.listRecord
  by_cases h : e.record ∈ (s.route r).bld.current.recs
  · simp [Builder.append, h]
  · simp [Builder.append, h, State.record?_updRecord]

theorem State.placeEntry_counters (s : State) (r : RouteId) (e : SegEntry) (bytes : List Byte) :
    (s.placeEntry r e bytes).counters = s.counters := by
  rw [State.placeEntry_frame]

/-! ## A slot that becomes SENT (R59, R92) -/

theorem State.slotSent_frame (s : State) (r : RouteId) (n packed : Nat) :
    s.slotSent r n packed = { s with routes := (s.slotSent r n packed).routes, records := (s.slotSent r n packed).records } := by
  unfold State.slotSent
  rw [State.updRecord_frame]
  rfl

theorem State.route_slotSent_self (s : State) (r : RouteId) (n packed : Nat) :
    (s.slotSent r n packed).route r =
      { s.route r with
        bld := { (s.route r).bld with
          fillSpan := { (s.route r).bld.fillSpan with closing := (s.route r).bld.fillSpan.closing ++ [n] } } } := by
  unfold State.slotSent
  rw [State.route_updBld_self, State.route_updRecord]

theorem State.route_slotSent_of_ne (s : State) {r q : RouteId} (n packed : Nat) (h : q ≠ r) :
    (s.slotSent r n packed).route q = s.route q :=
  (State.route_updBld_of_ne _ _ h).trans (State.route_updRecord s n _ q)

theorem State.record?_slotSent (s : State) (r : RouteId) (n packed m : Nat) :
    (s.slotSent r n packed).record? m =
      if m = n then (s.record? m).map fun x => x.updSlot r fun sl => { sl with state := .sent, packed := packed }
      else s.record? m :=
  State.record?_updRecord s n _ m

/-! ## The rows' own choice (R86, R87) -/

theorem exec_segmentPlace_of_control {s : State} {r : RouteId} {i : CtrlItem} {rest : List CtrlItem}
    (hf : (s.route r).bld.fill ≠ .closed) (hm : (s.route r).bld.marker = none) (hq : (s.route r).bld.ctrlQ = i :: rest) :
    exec (.segmentPlace r) s = s.placeControl r i := by
  have hnext : s.nextItem r = some (.inl i) := by
    unfold State.nextItem
    rw [hq]
  have hmay : s.mayPlace r = true := by simp [State.mayPlace, State.hasWork, hf, hm, hnext]
  change execSegmentPlace r s = _
  unfold execSegmentPlace
  rw [if_pos hmay, hnext]

theorem exec_segmentPlace_of_put {s : State} {r : RouteId} {n : Nat} (hf : (s.route r).bld.fill ≠ .closed)
    (hm : (s.route r).bld.marker = none) (hn : s.nextItem r = some (.inr n)) :
    exec (.segmentPlace r) s = s.placePut r n := by
  have hmay : s.mayPlace r = true := by simp [State.mayPlace, State.hasWork, hf, hm, hn]
  change execSegmentPlace r s = _
  unfold execSegmentPlace
  rw [if_pos hmay, hn]

/-! ## A PUT_PART placed (R59, R88, R90) -/

/-- The builder once a PUT_PART that packs record `n`, which is `x`, up to `packed` stands in the span: with the last byte the record
leaves its class queue and is on the closing list, starved it rotates to the tail (R59, R88, R92). -/
def Builder.afterPut (b : Builder) (x : Record) (n packed : Nat) : Builder :=
  { b with
    fillSpan := { b.fillSpan with closing := if packed = x.length then b.fillSpan.closing ++ [n] else b.fillSpan.closing }
    classQ := (if packed = x.length then b.leaveClass x.cls n
      else if packed = x.ingested then (b.leaveClass x.cls n).joinClass x.cls n else b).classQ }

theorem State.afterPut_of_last (s : State) (r : RouteId) {x : Record} (n : Nat) {packed : Nat} (h : packed = x.length) :
    s.afterPut r x n packed = (s.slotSent r n packed).updBld r fun b => b.leaveClass x.cls n :=
  if_pos h

/-- The record of a PUT_PART that is not its last, packed up to `packed`. -/
def State.packSlot (s : State) (r : RouteId) (n packed : Nat) : State :=
  s.updRecord n fun x => x.updSlot r fun sl => { sl with packed := packed }

theorem State.afterPut_of_starved (s : State) (r : RouteId) {x : Record} (n : Nat) {packed : Nat} (h : packed ≠ x.length)
    (hi : packed = x.ingested) :
    s.afterPut r x n packed =
      ((s.packSlot r n packed).updBld r fun b => (b.leaveClass x.cls n).joinClass x.cls n).countRoute r .headRotations :=
  (if_neg h).trans (if_pos hi)

theorem State.afterPut_of_more (s : State) (r : RouteId) {x : Record} (n : Nat) {packed : Nat} (h : packed ≠ x.length)
    (hi : packed ≠ x.ingested) : s.afterPut r x n packed = s.packSlot r n packed :=
  (if_neg h).trans (if_neg hi)

/-- A PUT_PART is its record's last, or leaves it starved, or leaves more to pack. -/
theorem State.afterPut_cases (s : State) (r : RouteId) (x : Record) (n packed : Nat) :
    (packed = x.length ∧ s.afterPut r x n packed = (s.slotSent r n packed).updBld r fun b => b.leaveClass x.cls n) ∨
      (packed ≠ x.length ∧ packed = x.ingested ∧ s.afterPut r x n packed =
        ((s.packSlot r n packed).updBld r fun b => (b.leaveClass x.cls n).joinClass x.cls n).countRoute r .headRotations) ∨
      packed ≠ x.length ∧ packed ≠ x.ingested ∧ s.afterPut r x n packed = s.packSlot r n packed := by
  by_cases h : packed = x.length
  · exact .inl ⟨h, s.afterPut_of_last r n h⟩
  · by_cases hi : packed = x.ingested
    · exact .inr (.inl ⟨h, hi, s.afterPut_of_starved r n h hi⟩)
    · exact .inr (.inr ⟨h, hi, s.afterPut_of_more r n h hi⟩)

/-- What follows a PUT_PART changes only its route, the record table and the counters. -/
theorem State.afterPut_frame (s : State) (r : RouteId) (x : Record) (n packed : Nat) :
    s.afterPut r x n packed =
      { s with
        routes := (s.afterPut r x n packed).routes
        records := (s.afterPut r x n packed).records
        counters := (s.afterPut r x n packed).counters } := by
  obtain ⟨_, h⟩ | ⟨_, _, h⟩ | ⟨_, _, h⟩ := s.afterPut_cases r x n packed <;> rw [h]
  · rw [State.slotSent_frame]
    rfl
  · rw [State.packSlot, State.updRecord_frame]
    rfl
  · rw [State.packSlot, State.updRecord_frame]

theorem State.route_afterPut_self (s : State) (r : RouteId) (x : Record) (n packed : Nat) :
    (s.afterPut r x n packed).route r = { s.route r with bld := (s.route r).bld.afterPut x n packed } := by
  unfold Builder.afterPut
  obtain ⟨hlast, h⟩ | ⟨hlast, hstarved, h⟩ | ⟨hlast, hstarved, h⟩ := s.afterPut_cases r x n packed <;> rw [h]
  · rw [if_pos hlast, if_pos hlast, State.route_updBld_self, State.route_slotSent_self]
    rfl
  · rw [if_neg hlast, if_neg hlast, if_pos hstarved, State.route_countRoute, State.route_updBld_self, State.packSlot,
      State.route_updRecord]
    rfl
  · rw [if_neg hlast, if_neg hlast, if_neg hstarved, State.packSlot, State.route_updRecord]

theorem State.route_afterPut_of_ne (s : State) {r q : RouteId} (x : Record) (n packed : Nat) (h : q ≠ r) :
    (s.afterPut r x n packed).route q = s.route q := by
  obtain ⟨_, hk⟩ | ⟨_, _, hk⟩ | ⟨_, _, hk⟩ := s.afterPut_cases r x n packed <;> rw [hk]
  · exact (State.route_updBld_of_ne _ _ h).trans (State.route_slotSent_of_ne s n packed h)
  · rw [State.route_countRoute]
    exact (State.route_updBld_of_ne _ _ h).trans (State.route_updRecord s n _ q)
  · exact State.route_updRecord s n _ q

/-- The packed offset grows, and with the last byte the slot is SENT (R59). -/
theorem State.record?_afterPut (s : State) (r : RouteId) (x : Record) (n packed m : Nat) :
    (s.afterPut r x n packed).record? m =
      if m = n then
        (s.record? m).map fun y => y.updSlot r fun sl =>
          { sl with packed := packed, state := if packed = x.length then .sent else sl.state }
      else s.record? m := by
  obtain ⟨hlast, h⟩ | ⟨hlast, _, h⟩ | ⟨hlast, _, h⟩ := s.afterPut_cases r x n packed <;> rw [h]
  · simp only [if_pos hlast]
    exact State.record?_slotSent s r n packed m
  · simp only [if_neg hlast]
    exact State.record?_updRecord s n _ m
  · simp only [if_neg hlast]
    exact State.record?_updRecord s n _ m

/-- What follows a PUT_PART counts HEAD_ROTATIONS at most. -/
theorem State.counter_afterPut_of_key_ne (s : State) (r : RouteId) (x : Record) (n packed : Nat) {c : Counter}
    (h : c.key ≠ (Counter.route r .headRotations).key) : (s.afterPut r x n packed).counter c = s.counter c := by
  obtain ⟨_, hk⟩ | ⟨_, _, hk⟩ | ⟨_, _, hk⟩ := s.afterPut_cases r x n packed <;> rw [hk]
  · exact State.counter_congr (by rw [State.slotSent_frame]; rfl) c
  · rw [State.countRoute, State.counter_count_of_key_ne _ h]
    exact State.counter_congr (State.updRecord_counters s n _) c
  · exact State.counter_congr (State.updRecord_counters s n _) c

/-- A starved record that rotates to the tail is counted (R88). -/
theorem State.afterPut_counted (s : State) (r : RouteId) (x : Record) (n packed : Nat) :
    s.counted (s.afterPut r x n packed) (if packed ≠ x.length ∧ packed = x.ingested then 1 else 0) (.route r .headRotations) := by
  obtain ⟨hlast, h⟩ | ⟨hlast, hstarved, h⟩ | ⟨_, hstarved, h⟩ := s.afterPut_cases r x n packed <;> rw [h]
  · rw [if_neg fun h => h.1 hlast]
    exact State.counted_zero_of_eq (State.counter_congr (by rw [State.slotSent_frame]; rfl) _)
  · rw [if_pos ⟨hlast, hstarved⟩]
    intro _
    rw [State.countRoute, State.counter_count_self]
    exact congrArg (fun v => min (v + 1) Config.counterMax) (State.counter_congr (State.updRecord_counters s n _) _)
  · rw [if_neg fun h => hstarved h.2]
    exact State.counted_zero_of_eq (State.counter_congr (State.updRecord_counters s n _) _)

/-- A PUT_PART that can start, and whose bytes were written, is placed, and the hold test follows (R89, R90, R94). -/
theorem State.placePut_of_read {s : State} {r : RouteId} {n : Nat} {x : Record} {sl : Slot} {d : List Byte}
    (hx : s.record? n = some x) (hsl : x.slotOn r = some sl) (hstart : x.canStart sl (s.route r).bld.current = true)
    (hd : readBody s.dram x.extents sl.packed (partLength x sl (s.route r).bld.current) = some d) :
    s.placePut r n =
      let e : SegEntry :=
        { record := n, kind := .putPart, offset := sl.packed, len := partLength x sl (s.route r).bld.current }
      .next (((s.placeEntry r e (segmentBytes (segmentOf x e d))).afterPut r x n (sl.packed + e.len)).holdTest r) := by
  have hbytes (e : SegEntry) (hr : e.record = n) (hk : e.kind = .putPart)
      (hb : readBody s.dram x.extents e.offset e.len = some d) : s.entryBytes e = some (segmentBytes (segmentOf x e d)) := by
    unfold State.entryBytes
    rw [hr, hx]
    dsimp only
    rw [hk]
    dsimp only
    rw [hb, Option.map_some]
  unfold State.placePut
  rw [hx]
  dsimp only
  rw [hsl]
  dsimp only
  rw [if_pos hstart, hbytes _ rfl rfl hd]

/-- The entry of the PUT_PART placed next of record `n` (R90). -/
def putEntry (n : Nat) (x : Record) (sl : Slot) (sp : Span) : SegEntry :=
  { record := n, kind := .putPart, offset := sl.packed, len := partLength x sl sp }

/-- The header of a PUT_PART as R90 gives it. -/
theorem segmentOf_putEntry (n : Nat) (x : Record) (sl : Slot) (sp : Span) (d : List Byte) :
    segmentOf x (putEntry n x sl sp) d =
      { kind := .putPart, first := decide (sl.packed = 0), last := decide (sl.packed + partLength x sl sp = x.length)
        bucket := x.bucket, key := x.key, stamp := x.stamp, objLen := x.length, offset := sl.packed
        check := if sl.packed + partLength x sl sp = x.length then x.check else 0, data := d } := by
  simp only [segmentOf, putEntry, beq_eq_decide]
  congr

/-- Settles O18: the segment joins the span, its record is packed further, and the hold test comes last. -/
theorem putPartPlaced : Obligations.PutPartPlaced := by
  intro s r n x sl d b sp room len hfill hmarker hnext hx hsl hsegs hroom hd last placed
  have hsp : (s.route r).bld.current = sp := rfl
  have hlen : partLength x sl (s.route r).bld.current = len := rfl
  have hstart : x.canStart sl (s.route r).bld.current = true := by
    rw [Record.canStart, Bool.and_eq_true, Bool.or_eq_true, decide_eq_true_iff, decide_eq_true_iff, decide_eq_true_iff]
    exact ⟨hsegs, hroom⟩
  rw [← hlen] at hd
  clear_value len sp
  obtain ⟨e, he⟩ : ∃ e, e = putEntry n x sl (s.route r).bld.current := ⟨_, rfl⟩
  obtain ⟨v, hv⟩ : ∃ v, v = s.placeEntry r e (segmentBytes (segmentOf x e d)) := ⟨_, rfl⟩
  obtain ⟨u, hu⟩ : ∃ u, u = v.afterPut r x n (sl.packed + len) := ⟨_, rfl⟩
  have hexec : exec (.segmentPlace r) s = .next (u.holdTest r) := by
    rw [exec_segmentPlace_of_put hfill hmarker hnext, State.placePut_of_read hx hsl hstart hd, hu, hv, he, putEntry, hlen]
  have hframe : u = { s with routes := u.routes, records := u.records, counters := u.counters } := by
    rw [hu, State.afterPut_frame, hv, State.placeEntry_frame]
  have hroute : u.route r = { s.route r with bld := placed } := by
    rw [hu, State.route_afterPut_self, hv, State.route_placeEntry_self, he, segmentOf_putEntry, putEntry, hlen,
      Builder.tookEntry, hsp]
    simp only [placed, Builder.afterPut, apply_ite Builder.classQ]
    rfl
  have hrecord (m : Nat) : u.record? m =
      if m = n then (s.record? m).map fun x' =>
        Record.updSlot { x' with refs := if n ∈ sp.recs then x'.refs else x'.refs + 1 } r fun sl' =>
          { sl' with packed := sl.packed + len, state := if last then .sent else sl'.state }
      else s.record? m := by
    rw [hu, State.record?_afterPut, hv, State.record?_placeEntry, he, putEntry, hsp]
    by_cases hm : m = n
    · rw [if_pos hm, if_pos hm, if_pos hm, Option.map_map]
      rfl
    · rw [if_neg hm, if_neg hm, if_neg hm]
  have hbefore (c : Counter) : v.counter c = s.counter c := by
    rw [hv]
    exact State.counter_congr (State.placeEntry_counters s r _ _) c
  have hhold : u.counter (.route r .spansClosedHold) = s.counter (.route r .spansClosedHold) := by
    rw [hu, State.counter_afterPut_of_key_ne _ _ _ _ _ (Counter.key_route_ne_of_place r (by decide)), hbefore]
  refine ⟨_, hexec, ?_, fun q hq => ?_, fun m hm => ?_, ?_, ?_, fun hle => ?_⟩
  · rw [State.holdTest_frame, hframe]
  · rw [(State.sameAt_holdTest hq u).route, hu, State.route_afterPut_of_ne _ _ _ _ hq, hv,
      State.route_placeEntry_of_ne _ _ _ hq]
  · rw [State.holdTest_frame]
    exact (hrecord m).trans (if_neg hm)
  · exact State.holdTest_after (by rw [hframe]) (by rw [hframe]) hroute hhold
  · rw [State.holdTest_frame]
    refine (hrecord n).trans ?_
    rw [if_pos rfl, hx]
    rfl
  · rw [State.counter_holdTest_of_key_ne _ _ (Counter.key_route_ne_of_place r (by decide))
      (Counter.key_route_ne_of_place r (by decide)), hu]
    rw [← hbefore] at hle ⊢
    exact State.afterPut_counted v r x n (sl.packed + len) hle

/-! ## A control item placed (R58, R59, R91) -/

/-- The entry of a control item's segment. -/
def CtrlItem.entry (i : CtrlItem) : SegEntry := { record := i.record, kind := i.kind.seg, offset := 0, len := 0 }

/-- The control queue's head has left it. -/
def State.takeControl (s : State) (r : RouteId) : State := s.updBld r fun b => { b with ctrlQ := b.ctrlQ.drop 1 }

/-- The state in which control item `i`, which left the queue, has its segment of bytes `bytes` placed, where one is placed: an
ERASE's slot becomes SENT (R59, R91). -/
def State.placedControl (s : State) (r : RouteId) (i : CtrlItem) (x : Record) (bytes : List Byte) : State :=
  match i.kind with
  | .abort => (s.takeControl r).placeEntry r i.entry bytes
  | .erase =>
    if x.slotState r = some .queued then ((s.takeControl r).placeEntry r i.entry bytes).slotSent r i.record 0
    else s.takeControl r

/-- The bytes of a control item's segment, whose record stands. -/
theorem State.entryBytes_control {s : State} {i : CtrlItem} {x : Record} (hx : s.record? i.record = some x) :
    s.entryBytes i.entry = some (segmentBytes (segmentOf x i.entry [])) := by
  have hx : s.record? i.entry.record = some x := hx
  obtain ⟨kind, n⟩ := i
  unfold State.entryBytes
  rw [hx]
  cases kind <;> rfl

/-- A control item that can start leaves the queue, its segment is placed, its record loses the item, and the hold test follows. -/
theorem State.placeControl_of_takes {s : State} {r : RouteId} {i : CtrlItem} {x : Record} {bytes : List Byte}
    (ht : (s.route r).bld.current.takesControl = true) (hx : s.record? i.record = some x)
    (hb : s.entryBytes i.entry = some bytes) :
    s.placeControl r i = .next (((s.placedControl r i x bytes).loseItem i.record).holdTest r) := by
  have hslot : ((s.record? i.record).bind fun y => y.slotState r) = x.slotState r := by rw [hx, Option.bind_some]
  unfold State.placeControl State.placedControl
  rw [if_pos ht, hslot]
  dsimp only
  rw [← CtrlItem.entry, hb]
  dsimp only
  cases i.kind with
  | abort => rfl
  | erase =>
    dsimp only
    split <;> rfl

section

variable (s : State) (r : RouteId) (i : CtrlItem) (x : Record) (bytes : List Byte)

/-- A control item places no segment, or places one, and an ERASE's slot becomes SENT with it (R59). -/
theorem State.placedControl_cases :
    (¬ (i.kind = .abort ∨ x.slotState r = some .queued) ∧ s.placedControl r i x bytes = s.takeControl r) ∨
      (i.kind = .abort ∧ s.placedControl r i x bytes = (s.takeControl r).placeEntry r i.entry bytes) ∨
      (i.kind = .erase ∧ x.slotState r = some .queued ∧
        s.placedControl r i x bytes = ((s.takeControl r).placeEntry r i.entry bytes).slotSent r i.record 0) := by
  unfold State.placedControl
  cases i.kind with
  | abort => exact .inr (.inl ⟨rfl, rfl⟩)
  | erase =>
    by_cases h : x.slotState r = some .queued
    · exact .inr (.inr ⟨rfl, h, if_pos h⟩)
    · exact .inl ⟨by simp [h], if_neg h⟩

theorem State.placedControl_frame :
    s.placedControl r i x bytes =
      { s with routes := (s.placedControl r i x bytes).routes, records := (s.placedControl r i x bytes).records } := by
  obtain ⟨_, h⟩ | ⟨_, h⟩ | ⟨_, _, h⟩ := s.placedControl_cases r i x bytes <;> rw [h]
  · rfl
  · rw [State.placeEntry_frame]
    rfl
  · rw [State.slotSent_frame, State.placeEntry_frame]
    rfl

theorem State.route_placedControl_of_ne {q : RouteId} (h : q ≠ r) : (s.placedControl r i x bytes).route q = s.route q := by
  have htake : (s.takeControl r).route q = s.route q := State.route_updBld_of_ne s _ h
  obtain ⟨_, hk⟩ | ⟨_, hk⟩ | ⟨_, _, hk⟩ := s.placedControl_cases r i x bytes <;> rw [hk]
  · exact htake
  · rw [State.route_placeEntry_of_ne _ _ _ h, htake]
  · rw [State.route_slotSent_of_ne _ _ _ h, State.route_placeEntry_of_ne _ _ _ h, htake]

/-- The builder once the head of the control queue left it, its segment placed where one is. -/
def Builder.placedControl (b : Builder) (now : Nat) (i : CtrlItem) (placed : Bool) (bytes : List Byte) : Builder :=
  let taken : Builder := { b with ctrlQ := b.ctrlQ.drop 1 }
  let b1 := taken.tookEntry now i.entry bytes
  if placed then
    { b1 with
      fillSpan := { b1.fillSpan with closing := if i.kind = .erase then b1.fillSpan.closing ++ [i.record] else b1.fillSpan.closing } }
  else taken

theorem State.route_placedControl_self :
    (s.placedControl r i x bytes).route r =
      { s.route r with
        bld := (s.route r).bld.placedControl s.now i (decide (i.kind = .abort ∨ x.slotState r = some .queued)) bytes } := by
  have htake : (s.takeControl r).route r = { s.route r with bld := { (s.route r).bld with ctrlQ := (s.route r).bld.ctrlQ.drop 1 } } :=
    State.route_updBld_self s r _
  unfold Builder.placedControl
  obtain ⟨hp, h⟩ | ⟨hk, h⟩ | ⟨hk, hslot, h⟩ := s.placedControl_cases r i x bytes <;> rw [h]
  · rw [decide_eq_false hp, htake]
    rfl
  · rw [State.route_placeEntry_self, htake, hk]
    rfl
  · rw [State.route_slotSent_self, State.route_placeEntry_self, htake, hk, hslot]
    rfl

/-- The record of a placed control item: listed by the span, and an ERASE's slot SENT (R59, R92). -/
def Record.placedControl (x : Record) (r : RouteId) (i : CtrlItem) (listed : Bool) : Record :=
  { x with
    refs := if listed then x.refs else x.refs + 1
    slots := if i.kind = .erase then
        x.slots.map fun e => if e.route = r then { e with state := .sent, packed := 0 } else e
      else x.slots }

theorem State.record?_placedControl_of_ne {m : Nat} (h : m ≠ i.record) :
    (s.placedControl r i x bytes).record? m = s.record? m := by
  have hentry : ((s.takeControl r).placeEntry r i.entry bytes).record? m = s.record? m := by
    rw [State.record?_placeEntry, if_neg (show m ≠ i.entry.record from h)]
    rfl
  obtain ⟨_, hk⟩ | ⟨_, hk⟩ | ⟨_, _, hk⟩ := s.placedControl_cases r i x bytes <;> rw [hk]
  · rfl
  · exact hentry
  · rw [State.record?_slotSent, if_neg h, hentry]

variable {s r i x} in
theorem State.record?_placedControl_self (hx : s.record? i.record = some x) (hp : i.kind = .abort ∨ x.slotState r = some .queued) :
    (s.placedControl r i x bytes).record? i.record =
      some (x.placedControl r i (decide (i.record ∈ (s.route r).bld.current.recs))) := by
  have hcurrent : ((s.takeControl r).route r).bld.current = (s.route r).bld.current := by
    rw [State.takeControl, State.route_updBld_self]
    rfl
  have hentry : ((s.takeControl r).placeEntry r i.entry bytes).record? i.record =
      some { x with refs := if i.record ∈ (s.route r).bld.current.recs then x.refs else x.refs + 1 } := by
    rw [State.record?_placeEntry, if_pos (show i.record = i.entry.record from rfl), hcurrent, State.takeControl,
      State.record?_updBld, hx]
    rfl
  unfold Record.placedControl
  obtain ⟨hn, _⟩ | ⟨hk, h⟩ | ⟨hk, _, h⟩ := s.placedControl_cases r i x bytes
  · exact absurd hp hn
  · rw [h, hentry, hk]
    simp
  · rw [h, State.record?_slotSent, if_pos rfl, hentry, hk]
    simp [Record.updSlot]

end

/-- A record that a span lists is not free when it loses a queue item (R65). -/
theorem Record.unlessFreeable_of_refs {x : Record} (h : 0 < x.refs) : x.unlessFreeable = some x := by
  have hkept : x.freeable = false := by simp [Record.freeable, Nat.ne_of_gt h]
  rw [Record.unlessFreeable, hkept]
  rfl

/-- Settles O19: the item leaves the queue with its segment placed, its record loses the item, and the hold test comes last. -/
theorem controlSegmentPlaced : Obligations.ControlSegmentPlaced := by
  intro s r i rest x b sp placed seg hfill hmarker hqueue hx hsegs hroom left
  have hsp : (s.route r).bld.current = sp := rfl
  have htakes : (s.route r).bld.current.takesControl = true := by
    rw [Span.takesControl, Bool.and_eq_true, decide_eq_true_iff, decide_eq_true_iff]
    exact ⟨hsegs, hroom⟩
  clear_value sp
  have hseg : segmentOf x i.entry [] = seg := by
    unfold segmentOf CtrlItem.entry
    simp only [seg]
    cases i.kind <;> rfl
  have hleft : left = b.placedControl s.now i (decide placed) (segmentBytes seg) := by
    have htaken : ({ b with ctrlQ := b.ctrlQ.drop 1 } : Builder).current = sp := hsp
    unfold Builder.placedControl Builder.tookEntry
    dsimp only
    rw [htaken, hqueue]
    by_cases hp : placed
    · rw [decide_eq_true hp]
      exact if_pos hp
    · rw [decide_eq_false hp]
      exact if_neg hp
  obtain ⟨v, hv⟩ : ∃ v, v = s.placedControl r i x (segmentBytes seg) := ⟨_, rfl⟩
  obtain ⟨u, hu⟩ : ∃ u, u = v.loseItem i.record := ⟨_, rfl⟩
  have hexec : exec (.segmentPlace r) s = .next (u.holdTest r) := by
    rw [exec_segmentPlace_of_control hfill hmarker hqueue, State.placeControl_of_takes htakes hx
      (State.entryBytes_control hx), hu, hv, hseg]
  have hframe : u = { s with
      routes := u.routes, records := u.records, keyIndex := u.keyIndex, pool := u.pool, counters := u.counters } := by
    rw [hu, State.loseItem_frame, hv, State.placedControl_frame]
  have hroutes (q : RouteId) : u.route q = v.route q := by
    rw [hu]
    exact State.route_congr (by rw [State.loseItem_frame]) q
  have hcounters (c : Counter) : u.counter c = s.counter c := by
    rw [hu]
    exact State.counter_congr (by rw [State.loseItem_frame, hv, State.placedControl_frame]) c
  have hroute : u.route r = { s.route r with bld := left } := by
    rw [hroutes, hv, State.route_placedControl_self, ← hleft]
  refine ⟨_, hexec, ?_, fun q hq => ?_, fun m hm => ?_, ?_, fun hp hrefs => ?_⟩
  · rw [State.holdTest_frame, hframe]
  · rw [(State.sameAt_holdTest hq u).route, hroutes, hv, State.route_placedControl_of_ne _ _ _ _ _ hq]
  · rw [State.holdTest_frame]
    change u.record? m = _
    rw [hu, State.record?_loseItem, if_neg hm, hv, State.record?_placedControl_of_ne _ _ _ _ _ hm]
  · exact State.holdTest_after (by rw [hframe]) (by rw [hframe]) hroute (hcounters _)
  · rw [State.holdTest_frame]
    change u.record? i.record = _
    rw [hu, State.record?_loseItem, if_pos rfl, hv, State.record?_placedControl_self _ hx hp, Option.bind_some,
      Record.unlessFreeable_of_refs, hsp]
    · simp [Record.placedControl]
    · by_cases hlisted : i.record ∈ sp.recs
      · simpa [Record.placedControl, hsp, hlisted] using hrefs.resolve_right (not_not_intro hlisted)
      · simp [Record.placedControl, hsp, hlisted]

end Sys2Proof.Machine
end

section
/-! SUPPORT. The statement of a span's first transmission (R60, R97, R98, R107, R109, R118, R120): the offer that a grant follows, the
pass over the closing list, the parts of R109 in their order, then the obligation. -/

namespace Sys2Proof.Machine

/-! ## The grant (R106, R107) -/

/-- A route that is granted offers a frame. -/
theorem State.offer_isSome_of_granted {s : State} {r : RouteId} (h : s.granted = some r.castSucc) : (s.offer r).isSome = true := by
  unfold State.granted at h
  split at h
  · have heligible := List.find?_some h
    unfold State.eligible at heligible
    rwa [dif_pos (show r.castSucc.val < 8 from r.isLt)] at heligible
  · cases h

/-- A route in service without a control frame due or a resend offers its READY span, and is not PAUSED. -/
theorem State.offer_ready {s : State} {r : RouteId} {sp : Span} (h : (s.offer r).isSome = true)
    (hrec : (s.route r).tx.receiptDue = false) (hrep : (s.route r).tx.replyDue = false)
    (hst : (s.route r).ctl.state = .acquire ∨ (s.route r).ctl.state = .track) (hres : (s.route r).tx.resend = [])
    (hready : (s.route r).bld.ready = some sp) : s.offer r = some (.ready sp) ∧ (s.route r).ctl.paused = false := by
  have hhead : (s.route r).tx.resendHead = none := by rw [Transmit.resendHead, hres]; rfl
  have hserves : (s.route r).ctl.state.inService = true := (RouteState.inService_iff _).mpr hst
  have hcontrol : ¬ ((s.route r).tx.probeDue = true ∧
      ((s.route r).ctl.state = .opening ∨ (s.route r).ctl.state = .impaired)) := by
    rintro ⟨_, ho⟩
    rcases hst with hst | hst <;> simp [hst] at ho
  have hclosed : (s.route r).ctl.state ≠ .closed := by rcases hst with hst | hst <;> simp [hst]
  unfold State.offer at h ⊢
  dsimp only at h ⊢
  simp only [hrec, hrep, hcontrol, hclosed, hserves, hhead, hready, false_or, true_and, if_false, Bool.false_eq_true] at h ⊢
  split at h
  · cases h
  next hpaused =>
    have hpaused := Bool.eq_false_iff.mpr hpaused
    refine ⟨?_, hpaused⟩
    rw [if_neg (by rw [hpaused]; decide)]
    split at h
    next hcredit =>
      rw [if_pos hcredit]
      split at h
      next hroom => rw [if_pos hroom]
      next => cases h
    next => cases h

theorem exec_longhaulGrant_of_ready {s : State} {r : RouteId} {sp : Span} (h : s.granted = some r.castSucc)
    (ho : s.offer r = some (.ready sp)) :
    exec .longhaulGrant s = .next (State.firstSend { s with arbLast := r.castSucc } r sp) := by
  have ho : State.offer { s with arbLast := r.castSucc } r = some (.ready sp) := ho
  change execLonghaulGrant s = _
  unfold execLonghaulGrant
  rw [h]
  dsimp only
  rw [dif_pos (show r.castSucc.val < 8 from r.isLt)]
  change State.grantRoute { s with arbLast := r.castSucc } r = _
  unfold State.grantRoute
  rw [ho]

/-! ## The pass over the closing list (R60, R118) -/

/-- Record `n` has a slot on route `r` in state `st`. -/
def State.slotIs (s : State) (r : RouteId) (st : SlotState) (n : Nat) : Bool :=
  decide (((s.record? n).bind fun x => x.slotState r) = some st)

/-- A slot still SENT takes the sequence of its closing span (R60). -/
def Record.closedBy (x : Record) (r : RouteId) (q : Word) : Record :=
  if x.slotState r = some .sent then x.updSlot r fun sl => { sl with closing := some q } else x

theorem Record.slotState_closedBy (x : Record) (r : RouteId) (q : Word) : (x.closedBy r q).slotState r = x.slotState r := by
  unfold Record.closedBy
  split
  · exact Record.slotState_updSlot_of_state x r _ (fun _ => rfl) fun _ => rfl
  · rfl

/-- A change of a slot that does no more the second time. -/
theorem Record.updSlot_updSlot (x : Record) (r : RouteId) (f : Slot → Slot) (hr : ∀ sl, (f sl).route = sl.route)
    (hf : ∀ sl, f (f sl) = f sl) : (x.updSlot r f).updSlot r f = x.updSlot r f := by
  unfold Record.updSlot
  simp only [List.map_map]
  refine congrArg (fun slots => { x with slots := slots }) (List.map_congr_left fun sl _ => ?_)
  by_cases h : sl.route = r
  · simp [h, hr, hf]
  · simp [h]

theorem Record.closedBy_closedBy (x : Record) (r : RouteId) (q : Word) : (x.closedBy r q).closedBy r q = x.closedBy r q := by
  by_cases h : x.slotState r = some .sent
  · have hk := Record.slotState_closedBy x r q
    rw [h] at hk
    have hclosed : x.closedBy r q = x.updSlot r fun sl => { sl with closing := some q } := if_pos h
    rw [Record.closedBy, if_pos hk, hclosed]
    exact Record.updSlot_updSlot x r _ (fun _ => rfl) fun _ => rfl
  · have hclosed : x.closedBy r q = x := if_neg h
    rw [hclosed, hclosed]

section

variable (s : State) (r : RouteId) (q : Word) (n : Nat)

theorem State.closeSlot_of_sent (h : s.slotIs r .sent n = true) :
    s.closeSlot r q n =
      (s.updRecord n fun x => x.updSlot r fun sl => { sl with closing := some q }).updTx r fun t =>
        { t with settleQ := t.settleQ ++ [{ seq := q, record := n }] } :=
  if_pos (of_decide_eq_true h)

theorem State.closeSlot_of_not_sent (h : s.slotIs r .sent n = false) : s.closeSlot r q n = s :=
  if_neg (of_decide_eq_false h)

theorem State.closeSlot_frame :
    s.closeSlot r q n = { s with routes := (s.closeSlot r q n).routes, records := (s.closeSlot r q n).records } := by
  cases h : s.slotIs r .sent n with
  | true =>
    rw [State.closeSlot_of_sent s r q n h, State.updRecord_frame]
    rfl
  | false => rw [State.closeSlot_of_not_sent s r q n h]

theorem State.route_closeSlot_of_ne {p : RouteId} (hp : p ≠ r) : (s.closeSlot r q n).route p = s.route p := by
  cases h : s.slotIs r .sent n with
  | true =>
    rw [State.closeSlot_of_sent s r q n h]
    exact (State.route_updTx_of_ne _ _ hp).trans (State.route_updRecord s n _ p)
  | false => rw [State.closeSlot_of_not_sent s r q n h]

theorem State.record?_closeSlot (m : Nat) :
    (s.closeSlot r q n).record? m = if m = n then (s.record? m).bind fun x => some (x.closedBy r q) else s.record? m := by
  by_cases hm : m = n
  · subst hm
    rw [if_pos rfl]
    cases hx : s.record? m with
    | none =>
      have h : s.slotIs r .sent m = false := by simp [State.slotIs, hx]
      rw [State.closeSlot_of_not_sent s r q m h, hx, Option.bind_none]
    | some x =>
      cases h : s.slotIs r .sent m with
      | true =>
        have hsent : x.slotState r = some .sent := by simpa [State.slotIs, hx] using h
        rw [State.closeSlot_of_sent s r q m h, State.record?_updTx, State.record?_updRecord_self, hx, Option.bind_some,
          Option.map_some, Record.closedBy, if_pos hsent]
      | false =>
        have hsent : x.slotState r ≠ some .sent := by simpa [State.slotIs, hx] using h
        rw [State.closeSlot_of_not_sent s r q m h, hx, Option.bind_some, Record.closedBy, if_neg hsent]
  · rw [if_neg hm]
    cases h : s.slotIs r .sent n with
    | true =>
      rw [State.closeSlot_of_sent s r q n h]
      exact State.record?_updRecord_of_ne s _ hm
    | false => rw [State.closeSlot_of_not_sent s r q n h]

/-- A closing slot stays SENT. -/
theorem State.slotIs_closeSlot (st : SlotState) (m : Nat) : (s.closeSlot r q n).slotIs r st m = s.slotIs r st m := by
  unfold State.slotIs
  rw [State.record?_closeSlot]
  split
  · cases s.record? m with
    | none => rfl
    | some x => simp only [Option.bind_some, Record.slotState_closedBy]
  · rfl

theorem State.route_closeSlot_self :
    (s.closeSlot r q n).route r =
      { s.route r with
        tx := { (s.route r).tx with
          settleQ := (s.route r).tx.settleQ ++ if s.slotIs r .sent n then [{ seq := q, record := n }] else [] } } := by
  cases h : s.slotIs r .sent n with
  | true =>
    rw [State.closeSlot_of_sent s r q n h, State.route_updTx_self, State.route_updRecord]
    rfl
  | false =>
    rw [State.closeSlot_of_not_sent s r q n h]
    simp

end

/-- The settlement queue takes an entry for each closing slot still SENT, in the order of the closing list (R118). -/
theorem State.route_closeSlots_self (s : State) (r : RouteId) (q : Word) (ns : List Nat) :
    (s.each ns fun s n => s.closeSlot r q n).route r =
      { s.route r with
        tx := { (s.route r).tx with
          settleQ := (s.route r).tx.settleQ ++ (ns.filter (s.slotIs r .sent)).map fun n => { seq := q, record := n } } } := by
  induction ns generalizing s with
  | nil => simp [State.each]
  | cons n ns ih =>
    have hcons : (s.each (n :: ns) fun s n => s.closeSlot r q n) = (s.closeSlot r q n).each ns fun s n => s.closeSlot r q n := rfl
    have hsame : (s.closeSlot r q n).slotIs r .sent = s.slotIs r .sent := funext (State.slotIs_closeSlot s r q n .sent)
    rw [hcons, ih, hsame, State.route_closeSlot_self]
    cases h : s.slotIs r .sent n <;> simp [h]

theorem State.closeSlots_frame (s : State) (r : RouteId) (q : Word) (ns : List Nat) :
    (s.each ns fun s n => s.closeSlot r q n) =
      { s with
        routes := (s.each ns fun s n => s.closeSlot r q n).routes
        records := (s.each ns fun s n => s.closeSlot r q n).records } := by
  refine State.each_keeps (fun t => t = { s with routes := t.routes, records := t.records }) ns _ (fun t n _ ht => ?_) s rfl
  rw [State.closeSlot_frame, ht]

theorem State.route_closeSlots_of_ne (s : State) {r p : RouteId} (q : Word) (ns : List Nat) (hp : p ≠ r) :
    (s.each ns fun s n => s.closeSlot r q n).route p = s.route p :=
  State.each_keeps (fun t => t.route p = s.route p) ns _
    (fun t n _ ht => (State.route_closeSlot_of_ne t r q n hp).trans ht) s rfl

theorem State.record?_closeSlots (s : State) (r : RouteId) (q : Word) (ns : List Nat) (m : Nat) :
    (s.each ns fun s n => s.closeSlot r q n).record? m =
      if m ∈ ns then (s.record? m).map fun x => x.closedBy r q else s.record? m := by
  have h := State.record?_each (fun _ => True) (key := fun n : Nat => n) (fun _ _ _ => trivial)
    (fun s n m _ => State.record?_closeSlot s r q n m) (fun x => congrArg some (Record.closedBy_closedBy x r q)) ns s trivial m
  rw [List.map_id'] at h
  rw [h]
  cases s.record? m <;> rfl

/-! ## The steps of a first transmission (R109) -/

/-- The descriptor taken, the span in the window under the next sequence, charged and sent (R109 steps 1 to 5). -/
def State.launch (s : State) (r : RouteId) (sp : Span) : State :=
  let q := (s.route r).tx.nextSeq
  let s1 := { s with descFree := s.descFree - 1 }.updTx r fun t =>
    { t with nextSeq := seqSucc q, window := t.window ++ [sp.descriptor q s.now], inFlight := t.inFlight + sp.wire }
  (s1.charge r sp.wire).sendRoute r (spanPayload sp.kind sp.srcRegion sp.dstRegion q sp.epoch sp.segs.length sp.area)

/-- The span is counted by its kind, a marker's sequence recorded (R109 step 7, 7.9). -/
def State.countSent (s : State) (r : RouteId) (k : SpanKind) (q : Word) : State :=
  match k with
  | .marker => (s.recordMarker r q).countRoute r .markersSent
  | .data => s.countRoute r .spansSent

/-- An empty window starts the resend timer at time `now`, and READY is filled again (R109 steps 8 and 9). -/
def State.refillReady (s : State) (r : RouteId) (first : Bool) (now : Nat) : State :=
  let s1 := if first then s.startTimer r now else s
  (s1.updBld r fun b => { b with ready := none }).handOver r

theorem State.firstSend_eq (s : State) (r : RouteId) (sp : Span) :
    s.firstSend r sp =
      (((s.launch r sp).each sp.closing fun u n => u.closeSlot r (s.route r).tx.nextSeq n).countSent r sp.kind
        (s.route r).tx.nextSeq).refillReady r (s.route r).tx.window.isEmpty s.now := rfl

section

variable (s : State) (r : RouteId)

theorem State.launch_frame (sp : Span) :
    s.launch r sp =
      { s with
        descFree := s.descFree - 1, routes := (s.launch r sp).routes
        longTx := some
          { dst := (s.route r).cfg.addr, src := s.settings.longAddr, ftype := s.settings.frameType
            payload := spanPayload sp.kind sp.srcRegion sp.dstRegion (s.route r).tx.nextSeq sp.epoch sp.segs.length sp.area } } := by
  have haddr (t : State) (f : Transmit → Transmit) (g : Pacing → Pacing) :
      (((t.updTx r f).updPace r g).route r).cfg.addr = (t.route r).cfg.addr := by
    rw [State.route_updPace_self, State.route_updTx_self]
  unfold State.launch State.sendRoute State.charge
  dsimp only
  rw [haddr]
  rfl

theorem State.route_launch_self (sp : Span) :
    (s.launch r sp).route r =
      { s.route r with
        pace := { (s.route r).pace with credit := (s.route r).pace.credit - (sp.wire : Int) }
        tx := { (s.route r).tx with
          nextSeq := seqSucc (s.route r).tx.nextSeq
          window := (s.route r).tx.window ++ [sp.descriptor (s.route r).tx.nextSeq s.now]
          inFlight := (s.route r).tx.inFlight + sp.wire } } := by
  unfold State.launch State.sendRoute State.charge
  dsimp only
  rw [State.route_startLong, State.route_updPace_self, State.route_updTx_self]
  rfl

theorem State.route_launch_of_ne {p : RouteId} (sp : Span) (hp : p ≠ r) : (s.launch r sp).route p = s.route p := by
  unfold State.launch State.sendRoute State.charge
  dsimp only
  rw [State.route_startLong, State.route_updPace_of_ne _ _ hp, State.route_updTx_of_ne _ _ hp]
  rfl

theorem State.countSent_frame (k : SpanKind) (q : Word) :
    s.countSent r k q = { s with routes := (s.countSent r k q).routes, counters := (s.countSent r k q).counters } := by
  cases k <;> rfl

theorem State.route_countSent_self (k : SpanKind) (q : Word) :
    (s.countSent r k q).route r =
      { s.route r with
        ctl := { (s.route r).ctl with
          marker := if k = .marker then (s.route r).ctl.marker.map fun m => { m with seq := some q } else (s.route r).ctl.marker } } := by
  cases k with
  | data => rfl
  | marker =>
    dsimp only [State.countSent, State.recordMarker]
    rw [State.route_countRoute, State.route_updCtl_self]
    rfl

theorem State.route_countSent_of_ne {p : RouteId} (k : SpanKind) (q : Word) (hp : p ≠ r) :
    (s.countSent r k q).route p = s.route p := by
  cases k with
  | data => rfl
  | marker =>
    dsimp only [State.countSent, State.recordMarker]
    rw [State.route_countRoute, State.route_updCtl_of_ne _ _ hp]

/-- The counter of a span sent for the first time (7.9). -/
def SpanKind.sentCounter : SpanKind → RouteCounter
  | .data => .spansSent
  | .marker => .markersSent

theorem State.countSent_counted (k : SpanKind) (q : Word) : s.counted (s.countSent r k q) 1 (.route r k.sentCounter) := by
  cases k with
  | data => exact State.count_counted s _
  | marker => exact State.count_counted (s.recordMarker r q) _

theorem State.refillReady_frame (first : Bool) (now : Nat) :
    s.refillReady r first now =
      { s with routes := (s.refillReady r first now).routes, counters := (s.refillReady r first now).counters } := by
  unfold State.refillReady
  rw [State.handOver_frame]
  cases first <;> rfl

theorem State.route_refillReady_of_ne {p : RouteId} (first : Bool) (now : Nat) (hp : p ≠ r) :
    (s.refillReady r first now).route p = s.route p := by
  unfold State.refillReady
  rw [(State.sameAt_handOver hp _).route]
  rw [State.route_updBld_of_ne _ _ hp]
  cases first with
  | true =>
    rw [if_pos rfl]
    exact State.route_updTx_of_ne s _ hp
  | false => rfl

theorem State.counter_refillReady_of_key_ne (first : Bool) (now : Nat) {c : Counter}
    (h : c.key ≠ (Counter.route r .markersBuilt).key) : (s.refillReady r first now).counter c = s.counter c := by
  unfold State.refillReady
  rw [State.counter_handOver_of_key_ne _ r h]
  cases first <;> rfl

/-- READY filled again: from a CLOSED span, else a pending marker (R97). -/
theorem Builder.handedOver_of_sent (src dst : BitVec 6) (b : Builder) :
    Builder.handedOver src dst { b with ready := none } =
      if b.fill = .closed then { b with ready := some b.fillSpan, fill := .empty, fillSpan := Span.empty }
      else
        match b.marker with
        | some e => { b with ready := some (markerSpan src dst e), marker := none }
        | none => { b with ready := none } := by
  obtain ⟨ctrlQ, classQ, fill, fillSpan, ready, marker, holdStart⟩ := b
  cases fill <;> cases marker <;> rfl

/-- Where the route is neither PAUSED nor IMPAIRED the timer starts (R120). -/
theorem State.route_refillReady_self (first : Bool) (now : Nat) (hp : (s.route r).ctl.paused = false)
    (hi : (s.route r).ctl.state ≠ .impaired) :
    (s.refillReady r first now).route r =
      { s.route r with
        tx := { (s.route r).tx with timer := if first then some now else (s.route r).tx.timer }
        bld := Builder.handedOver s.settings.localRegion (s.route r).cfg.region { (s.route r).bld with ready := none } } := by
  unfold State.refillReady
  rw [State.route_handOver_self, State.route_updBld_self]
  cases first with
  | true =>
    have hrun : (s.startTimer r now).route r = { s.route r with tx := { (s.route r).tx with timer := some now } } := by
      unfold State.startTimer
      rw [State.route_updTx_self, if_neg (by simp [hp, hi])]
    dsimp only
    rw [if_pos rfl, hrun]
    rfl
  | false => rfl

end

/-- Settles O23: the steps of R109 one after the other, the closing list's pass among them. -/
theorem readySpanSent : Obligations.ReadySpanSent := by
  intro s r sp hgranted x q sent hrec hrep hst hres hready
  obtain ⟨hoffer, hpaused⟩ := State.offer_ready (State.offer_isSome_of_granted hgranted) hrec hrep hst hres hready
  obtain ⟨s0, hs0⟩ : ∃ s0 : State, s0 = { s with arbLast := r.castSucc } := ⟨_, rfl⟩
  have hx : s0.route r = x := by rw [hs0]; rfl
  obtain ⟨u, hu⟩ : ∃ u, u = (s0.launch r sp).each sp.closing fun u n => u.closeSlot r q n := ⟨_, rfl⟩
  have hsend : s0.firstSend r sp = (u.countSent r sp.kind q).refillReady r x.tx.window.isEmpty s.now := by
    rw [State.firstSend_eq, hx, hu, hs0]
  have hsent : (s0.launch r sp).slotIs r .sent = fun n => decide (sent n) := by
    rw [State.launch_frame, hs0]
    rfl
  have hu_route : u.route r = { x with
      pace := { x.pace with credit := x.pace.credit - (sp.wire : Int) }
      tx := { x.tx with
        nextSeq := seqSucc q
        inFlight := x.tx.inFlight + sp.wire
        window := x.tx.window ++ [sp.descriptor q s.now]
        settleQ := x.tx.settleQ ++ (sp.closing.filter fun n => decide (sent n)).map fun n => { seq := q, record := n } } } := by
    rw [hu, State.route_closeSlots_self, hsent, State.route_launch_self, hx, hs0]
  have hu_frame : u = { s with
      arbLast := r.castSucc, descFree := s.descFree - 1, routes := u.routes, records := u.records
      longTx := some
        { dst := x.cfg.addr, src := s.settings.longAddr, ftype := s.settings.frameType
          payload := spanPayload sp.kind sp.srcRegion sp.dstRegion q sp.epoch sp.segs.length sp.area } } := by
    rw [hu, State.closeSlots_frame, State.launch_frame, hx, hs0]
  obtain ⟨v, hv⟩ : ∃ v, v = u.countSent r sp.kind q := ⟨_, rfl⟩
  have hv_route := State.route_countSent_self u r sp.kind q
  rw [← hv, hu_route] at hv_route
  have hrun : (v.route r).ctl.paused = false ∧ (v.route r).ctl.state ≠ .impaired := by
    rw [hv_route]
    refine ⟨hpaused, ?_⟩
    rcases hst with hst | hst <;> simp [x, hst]
  refine ⟨s0.firstSend r sp, ?_, ?_, fun p hp => ?_, ?_, fun n => ?_, ?_⟩
  · rw [exec_longhaulGrant_of_ready hgranted hoffer, hs0]
  · rw [hsend, State.refillReady_frame, State.countSent_frame, hu_frame]
  · rw [hsend, State.route_refillReady_of_ne _ _ _ _ hp, State.route_countSent_of_ne _ _ _ _ hp, hu,
      State.route_closeSlots_of_ne _ _ _ hp, State.route_launch_of_ne _ _ _ hp, hs0]
    rfl
  · have hsettings : v.settings = s.settings := by rw [hv, State.countSent_frame, hu_frame]
    rw [hsend, ← hv, State.route_refillReady_self _ _ _ _ hrun.1 hrun.2, hsettings, hv_route, Builder.handedOver_of_sent]
    simp only [List.isEmpty_iff]
    rfl
  · rw [hsend, State.refillReady_frame, State.countSent_frame]
    change u.record? n = _
    rw [hu, State.record?_closeSlots, State.launch_frame, hs0]
    change (if n ∈ sp.closing then (s.record? n).map fun x => x.closedBy r q else s.record? n) = _
    by_cases hn : n ∈ sp.closing
    · simp only [hn, if_true, true_and]
      rfl
    · simp [hn]
  · have hbuilt : (Counter.route r sp.kind.sentCounter).key ≠ (Counter.route r .markersBuilt).key :=
      Counter.key_route_ne_of_place r (by cases sp.kind <;> decide)
    have hcounted : s.counted (s0.firstSend r sp) 1 (.route r sp.kind.sentCounter) := by
      intro hle
      have hsame : u.counter (.route r sp.kind.sentCounter) = s.counter (.route r sp.kind.sentCounter) :=
        State.counter_congr (by rw [hu_frame]) _
      rw [hsend, State.counter_refillReady_of_key_ne _ _ _ _ hbuilt, ← hsame]
      exact State.countSent_counted u r sp.kind q (by rwa [hsame])
    cases hk : sp.kind with
    | data => rwa [hk] at hcounted
    | marker => rwa [hk] at hcounted

end Sys2Proof.Machine
end

section
/-! SUPPORT. Slots that end and the checks that follow at their records (R48, R62, R65 to R68): what each does to the record, to the
output queue and to the counts, one at a time and in a pass over several records. -/

namespace Sys2Proof.Machine

/-! ## A slot ends (R48, R66) -/

theorem Record.fixOutcome_eq (b x : Record) (v : VoidReason) :
    Record.fixOutcome b x v = { x with outcome := (Record.fixOutcome b x v).outcome } := by
  unfold Record.fixOutcome
  split
  · rfl
  · split
    · rfl
    · split <;> rfl

theorem Record.fixOutcome_slots (b x : Record) (v : VoidReason) : (Record.fixOutcome b x v).slots = x.slots := by
  rw [Record.fixOutcome_eq]

/-- The outcome that the check fixes where none was fixed (R66). -/
theorem Record.outcome_fixOutcome (b : Record) {x : Record} (v : VoidReason) (h : x.outcome = none) :
    (Record.fixOutcome b x v).outcome =
      if x.landed then some .landed else if x.voided then some (.voided (if b.voided then .abandoned else v)) else none := by
  unfold Record.fixOutcome
  rw [h]
  split
  next hs => cases hs
  next =>
    split
    · rfl
    · split
      · rfl
      · exact h

/-- A slot as it is once it became terminal in `st` (R48). -/
def Slot.endedIn (sl : Slot) (st : SlotState) : Slot := { sl with state := st, void := st.reason }

/-- Record `x` once its slot on route `r` became terminal in `st`, with the outcome check of a required slot (R48, R66). -/
def Record.ended (x : Record) (r : RouteId) (st : SlotState) : Record :=
  match x.slotOn r with
  | none => x
  | some sl =>
    if sl.state.terminal then x
    else
      let y := x.updSlot r fun sl => sl.endedIn st
      if sl.required then Record.fixOutcome x y (st.reason.getD .abandoned) else y

/-- A slot to end is missing, terminal already, or ends. -/
theorem Record.ended_cases (x : Record) (r : RouteId) (st : SlotState) :
    (∀ sl, x.slotOn r = some sl → sl.state.terminal = true) ∧ x.ended r st = x ∨
      ∃ sl, x.slotOn r = some sl ∧ sl.state.terminal = false ∧
        x.ended r st =
          if sl.required then Record.fixOutcome x (x.updSlot r fun sl => sl.endedIn st) (st.reason.getD .abandoned)
          else x.updSlot r fun sl => sl.endedIn st := by
  unfold Record.ended
  cases hsl : x.slotOn r with
  | none => exact .inl ⟨by simp, rfl⟩
  | some sl =>
    cases ht : sl.state.terminal with
    | true => exact .inl ⟨fun sl' h => by rwa [← Option.some.inj h], by simp [ht]⟩
    | false => exact .inr ⟨sl, rfl, ht, by simp [ht]⟩

/-- The end of a slot changes only the slots and the outcome. -/
theorem Record.ended_eq (x : Record) (r : RouteId) (st : SlotState) :
    x.ended r st = { x with slots := (x.ended r st).slots, outcome := (x.ended r st).outcome } := by
  obtain ⟨_, h⟩ | ⟨sl, _, _, h⟩ := x.ended_cases r st <;> rw [h]
  split
  · rw [Record.fixOutcome_eq]
    rfl
  · rfl

/-- A slot that ends is in its terminal state from then on; one that was terminal stays. -/
theorem Record.slotState_ended (x : Record) (r : RouteId) (st : SlotState) :
    (x.ended r st).slotState r = (x.slotState r).map fun v => if v.terminal then v else st := by
  obtain ⟨ht, h⟩ | ⟨sl, hsl, ht, h⟩ := x.ended_cases r st <;> rw [h]
  · unfold Record.slotState
    cases hsl : x.slotOn r with
    | none => rfl
    | some sl => simp [ht sl hsl]
  · have hslots : (x.ended r st).slots = (x.updSlot r fun sl => sl.endedIn st).slots := by
      rw [h]
      split
      · rw [Record.fixOutcome_slots]
      · rfl
    have hstate : (x.ended r st).slotState r = (x.updSlot r fun sl => sl.endedIn st).slotState r := by
      unfold Record.slotState Record.slotOn
      rw [hslots]
    rw [← h, hstate, Record.slotState_updSlot x r (fun sl => sl.endedIn st) fun _ => rfl, Record.slotState, hsl]
    simp [Slot.endedIn, ht]

/-- A slot ended in a terminal state ends no more. -/
theorem Record.ended_of_terminal {x : Record} {r : RouteId} {v : SlotState} (h : x.slotState r = some v) (ht : v.terminal = true)
    (st : SlotState) : x.ended r st = x := by
  obtain ⟨_, he⟩ | ⟨sl, hsl, hopen, _⟩ := x.ended_cases r st
  · exact he
  · rw [Record.slotState, hsl, Option.map_some, Option.some.injEq] at h
    rw [h, ht] at hopen
    cases hopen

theorem Record.ended_of_absent {x : Record} {r : RouteId} (h : x.slotState r = none) (st : SlotState) : x.ended r st = x := by
  obtain ⟨_, he⟩ | ⟨sl, hsl, _, _⟩ := x.ended_cases r st
  · exact he
  · rw [Record.slotState, hsl] at h
    cases h

theorem Record.ended_ended (x : Record) (r : RouteId) {st : SlotState} (hst : st.terminal = true) :
    (x.ended r st).ended r st = x.ended r st := by
  cases hv : x.slotState r with
  | none =>
    have hsame := Record.ended_of_absent hv st
    rw [hsame, hsame]
  | some v =>
    have hnow := Record.slotState_ended x r st
    rw [hv, Option.map_some] at hnow
    refine Record.ended_of_terminal hnow ?_ st
    split
    next ht => exact ht
    next => exact hst

/-- With at most one slot on a route, the one slot there is the one that changes. -/
theorem Record.slots_split {x : Record} {r : RouteId} {sl : Slot} (hd : (x.slots.map (·.route)).Nodup) (h : x.slotOn r = some sl) :
    ∃ a b, x.slots = a ++ sl :: b ∧ (∀ g ∈ a, g.route ≠ r) ∧ ∀ g ∈ b, g.route ≠ r := by
  obtain ⟨hmem, hroute⟩ := Record.slotOn_eq_some h
  obtain ⟨a, b, hsplit⟩ := List.append_of_mem hmem
  rw [hsplit, List.map_append, List.map_cons, List.nodup_append, List.nodup_cons] at hd
  obtain ⟨_, ⟨hb, _⟩, hab⟩ := hd
  refine ⟨a, b, hsplit, fun g hg e => ?_, fun g hg e => ?_⟩
  · exact hab _ (List.mem_map_of_mem hg) _ List.mem_cons_self (e.trans hroute.symm)
  · exact hb (List.mem_map.mpr ⟨g, hg, e.trans hroute.symm⟩)

/-- With at most one slot on a route, the record's slot there is the only one. -/
theorem Record.eq_of_slotOn {x : Record} {r : RouteId} {sl g : Slot} (hd : (x.slots.map (·.route)).Nodup)
    (h : x.slotOn r = some sl) (hg : g ∈ x.slots) (hr : g.route = r) : g = sl :=
  List.inj_on_of_nodup_map hd hg (Record.slotOn_eq_some h).1 (hr.trans (Record.slotOn_eq_some h).2.symm)

/-- The slots once the slot on a route ended, a route having at most one. -/
theorem Record.ended_slots (x : Record) (r : RouteId) (st : SlotState) (hd : (x.slots.map (·.route)).Nodup) :
    (x.ended r st).slots = x.slots.map fun sl => if sl.route = r ∧ sl.state.terminal = false then sl.endedIn st else sl := by
  obtain ⟨ht, h⟩ | ⟨sl, hsl, hopen, h⟩ := x.ended_cases r st
  · rw [h]
    refine (List.map_id' _).symm.trans (List.map_congr_left fun g hg => ?_)
    rw [if_neg]
    rintro ⟨hr, hopen⟩
    cases hsl : x.slotOn r with
    | none => exact absurd (List.find?_eq_none.mp hsl g hg) (by simp [hr])
    | some sl =>
      rw [Record.eq_of_slotOn hd hsl hg hr, ht sl hsl] at hopen
      cases hopen
  · have hslots : (x.ended r st).slots = (x.updSlot r fun sl => sl.endedIn st).slots := by
      rw [h]
      split
      · rw [Record.fixOutcome_slots]
      · rfl
    rw [hslots, Record.updSlot]
    refine List.map_congr_left fun g hg => ?_
    by_cases hgr : g.route = r
    · rw [if_pos hgr, if_pos ⟨hgr, by rwa [Record.eq_of_slotOn hd hsl hg hgr]⟩]
    · rw [if_neg hgr, if_neg fun h => hgr h.1]

theorem State.countSlot_records (s : State) (st : SlotState) : (s.countSlot st).records = s.records := by
  cases st <;> rfl

theorem State.endSlot_of_record {s : State} {n : Nat} {x : Record} (hx : s.record? n = some x) (r : RouteId) (st : SlotState) :
    s.endSlot n r st = s ∧ x.ended r st = x ∨ s.endSlot n r st = (s.setRecord n (x.ended r st)).countSlot st := by
  unfold State.endSlot Record.ended
  rw [hx]
  dsimp only
  cases x.slotOn r with
  | none => exact .inl ⟨rfl, rfl⟩
  | some sl =>
    by_cases ht : sl.state.terminal = true
    · exact .inl ⟨if_pos ht, if_pos ht⟩
    · dsimp only
      rw [if_neg ht, if_neg ht]
      exact .inr rfl

/-- The end of a slot, said of every record. -/
theorem State.record?_endSlot (s : State) (n : Nat) (r : RouteId) (st : SlotState) (m : Nat) :
    (s.endSlot n r st).record? m = if m = n then (s.record? m).bind fun x => some (x.ended r st) else s.record? m := by
  cases hx : s.record? n with
  | none =>
    have hsame : s.endSlot n r st = s := by
      unfold State.endSlot
      rw [hx]
    rw [hsame]
    by_cases hm : m = n
    · rw [if_pos hm, hm, hx, Option.bind_none]
    · rw [if_neg hm]
  | some x =>
    by_cases hm : m = n
    · rw [if_pos hm, hm, hx, Option.bind_some]
      obtain ⟨h, hsame⟩ | h := State.endSlot_of_record hx r st
      · rw [h, hx, hsame]
      · rw [h, State.record?_congr (State.countSlot_records _ st), State.record?_setRecord_self]
    · rw [if_neg hm]
      obtain ⟨h, _⟩ | h := State.endSlot_of_record hx r st
      · rw [h]
      · rw [h, State.record?_congr (State.countSlot_records _ st), State.record?_setRecord_of_ne _ _ hm]

/-! ## The checks at a record (R65, R67, R68) -/

/-- A record once its closing notice was placed, where it was due (R67). -/
def Record.noticed (up : Bool) (x : Record) : Record :=
  if x.outcome.isSome ∧ x.state = .live ∧ x.notice = .owed ∧ up = true then { x with notice := .sent } else x

/-- A record once the DRAINING test was made (R68). -/
def Record.drained (x : Record) : Record :=
  if x.state = .live ∧ x.notice = .sent ∧ x.allTerminal = true then { x with state := .draining } else x

/-- What the checks that follow a change of slots leave of a record (R65, R67, R68). -/
def Record.checked (up : Bool) (x : Record) : Option Record := (x.noticed up).drained.unlessFreeable

/-- The closing notice that the checks place (R67). -/
def Record.dueNotice (up : Bool) (x : Record) : Option (Record × RecOutcome) :=
  if x.state = .live ∧ x.notice = .owed ∧ up = true then x.outcome.map fun o => (x, o) else none

/-- The output queue once the closing notices `ns` were offered to it. -/
def noticesOut (q : List OutFrame) (ns : List (Record × RecOutcome)) : List OutFrame :=
  ns.foldl (fun q e => queuedOut q e.1.station (noticePayload e.1 e.2)) q

theorem Record.noticed_eq (up : Bool) (x : Record) : x.noticed up = { x with notice := (x.noticed up).notice } := by
  unfold Record.noticed
  split <;> rfl

theorem Record.drained_eq (x : Record) : x.drained = { x with state := x.drained.state } := by
  unfold Record.drained
  split <;> rfl

/-- The checks change a record's notice and state only. -/
theorem Record.checked_eq {up : Bool} {x y : Record} (h : x.checked up = some y) :
    y = { x with notice := (x.noticed up).notice, state := (x.noticed up).drained.state } := by
  unfold Record.checked Record.unlessFreeable at h
  split at h
  · cases h
  · rw [← Option.some.inj h, Record.drained_eq, Record.noticed_eq]

theorem Record.noticed_noticed (up : Bool) (x : Record) : (x.noticed up).noticed up = x.noticed up := by
  by_cases h : x.outcome.isSome ∧ x.state = .live ∧ x.notice = .owed ∧ up = true
  · have hn : x.noticed up = { x with notice := .sent } := if_pos h
    rw [hn]
    exact if_neg fun k => by simp at k
  · have hn : x.noticed up = x := if_neg h
    rw [hn, hn]

theorem Record.noticed_drained (up : Bool) (x : Record) : (x.noticed up).drained.noticed up = (x.noticed up).drained := by
  by_cases h : (x.noticed up).state = .live ∧ (x.noticed up).notice = .sent ∧ (x.noticed up).allTerminal = true
  · have hd : (x.noticed up).drained = { x.noticed up with state := .draining } := if_pos h
    rw [hd]
    exact if_neg fun k => by simp at k
  · have hd : (x.noticed up).drained = x.noticed up := if_neg h
    rw [hd, Record.noticed_noticed]

theorem Record.drained_drained (x : Record) : x.drained.drained = x.drained := by
  by_cases h : x.state = .live ∧ x.notice = .sent ∧ x.allTerminal = true
  · have hd : x.drained = { x with state := .draining } := if_pos h
    rw [hd]
    exact if_neg fun k => by simp at k
  · have hd : x.drained = x := if_neg h
    rw [hd, hd]

/-- Checked twice, a record is as checked once. -/
theorem Record.checked_checked (up : Bool) (x : Record) : (x.checked up).bind (Record.checked up) = x.checked up := by
  cases h : x.checked up with
  | none => rfl
  | some y =>
    have hy : y = (x.noticed up).drained := by
      unfold Record.checked Record.unlessFreeable at h
      split at h
      · cases h
      · exact (Option.some.inj h).symm
    rw [Option.bind_some, ← h, hy]
    unfold Record.checked
    rw [Record.noticed_drained, Record.drained_drained]

theorem State.noticeStep_of_due {s : State} {n : Nat} {x : Record} {o : RecOutcome} (hx : s.record? n = some x)
    (ho : x.outcome = some o) (h : x.state = .live ∧ x.notice = .owed ∧ s.clusterUp = true) :
    s.noticeStep n =
      ((s.setRecord n { x with notice := .sent }).placeOut x.station (noticePayload x o)).count (.ingest o.counter) := by
  unfold State.noticeStep
  rw [hx]
  dsimp only
  rw [ho]
  exact if_pos h

theorem State.noticeStep_of_not_due {s : State} {n : Nat} {x : Record} (hx : s.record? n = some x)
    (h : x.dueNotice s.clusterUp = none) : s.noticeStep n = s := by
  unfold State.noticeStep
  unfold Record.dueNotice at h
  rw [hx]
  dsimp only
  split
  · rfl
  next o ho =>
    split
    next hdue =>
      rw [if_pos hdue, ho] at h
      cases h
    · rfl

theorem Record.dueNotice_eq_some {up : Bool} {x : Record} {e : Record × RecOutcome} (h : x.dueNotice up = some e) :
    x.outcome = some e.2 ∧ (x.state = .live ∧ x.notice = .owed ∧ up = true) ∧ e.1 = x := by
  unfold Record.dueNotice at h
  split at h
  next hdue =>
    obtain ⟨o, ho, rfl⟩ := Option.map_eq_some_iff.mp h
    exact ⟨ho, hdue, rfl⟩
  next => cases h

theorem Record.noticed_of_not_due {up : Bool} {x : Record} (h : x.dueNotice up = none) : x.noticed up = x := by
  refine if_neg ?_
  rintro ⟨ho, hdue⟩
  rw [Record.dueNotice, if_pos hdue, Option.map_eq_none_iff] at h
  rw [h] at ho
  cases ho

/-- A notice, said of every record and of the queue. -/
theorem State.noticeStep_effect (s : State) (n : Nat) :
    (∀ m, (s.noticeStep n).record? m =
      if m = n then (s.record? m).map (Record.noticed s.clusterUp) else s.record? m) ∧
    (s.noticeStep n).outQ = noticesOut s.outQ ((s.record? n).bind (Record.dueNotice s.clusterUp)).toList := by
  cases hx : s.record? n with
  | none =>
    have hsame : s.noticeStep n = s := by
      unfold State.noticeStep
      rw [hx]
    rw [hsame]
    refine ⟨fun m => ?_, rfl⟩
    by_cases hm : m = n
    · rw [if_pos hm, hm, hx, Option.map_none]
    · rw [if_neg hm]
  | some x =>
    cases he : x.dueNotice s.clusterUp with
    | none =>
      rw [State.noticeStep_of_not_due hx he, Option.bind_some, he]
      refine ⟨fun m => ?_, rfl⟩
      by_cases hm : m = n
      · rw [if_pos hm, hm, hx, Option.map_some, Record.noticed_of_not_due he]
      · rw [if_neg hm]
    | some e =>
      obtain ⟨ho, hdue, hex⟩ := Record.dueNotice_eq_some he
      rw [State.noticeStep_of_due hx ho hdue, Option.bind_some, he]
      refine ⟨fun m => ?_, ?_⟩
      · rw [State.record?_count, State.placeOut_frame]
        change (s.setRecord n { x with notice := .sent }).record? m = _
        by_cases hm : m = n
        · rw [if_pos hm, hm, State.record?_setRecord_self, hx, Option.map_some, Record.noticed, if_pos ⟨by rw [ho]; rfl, hdue⟩]
        · rw [if_neg hm, State.record?_setRecord_of_ne _ _ hm]
      · change (State.placeOut _ _ _).outQ = _
        rw [State.placeOut_outQ, ← hex]
        rfl

theorem State.record?_drainStep (s : State) (n m : Nat) :
    (s.drainStep n).record? m = if m = n then (s.record? m).map Record.drained else s.record? m := by
  have hcase : ∀ x, s.record? n = some x → (s.drainStep n).record? m = if m = n then some x.drained else s.record? m := by
    intro x hx
    unfold State.drainStep Record.drained
    rw [hx]
    dsimp only
    by_cases hm : m = n
    · subst hm
      split
      · rw [if_pos rfl, State.record?_setRecord_self]
      · rw [if_pos rfl, hx]
    · rw [if_neg hm]
      split
      · rw [State.record?_setRecord_of_ne _ _ hm]
      · rfl
  cases hx : s.record? n with
  | none =>
    have hsame : s.drainStep n = s := by
      unfold State.drainStep
      rw [hx]
    rw [hsame]
    by_cases hm : m = n
    · rw [if_pos hm, hm, hx, Option.map_none]
    · rw [if_neg hm]
  | some x =>
    rw [hcase x hx]
    by_cases hm : m = n
    · rw [if_pos hm, if_pos hm, hm, hx, Option.map_some]
    · rw [if_neg hm, if_neg hm]

/-- The checks after a change of slots, said of every record. -/
theorem State.record?_recordCheck (s : State) (n m : Nat) :
    (s.recordCheck n).record? m = if m = n then (s.record? m).bind (Record.checked s.clusterUp) else s.record? m := by
  unfold State.recordCheck
  rw [State.record?_freeStep, State.record?_drainStep, (State.noticeStep_effect s n).1]
  by_cases hm : m = n
  · simp only [if_pos hm]
    cases s.record? m <;> rfl
  · simp only [if_neg hm]

/-- The checks after a change of slots, said of the output queue: the due notice is offered to it. -/
theorem State.recordCheck_outQ (s : State) (n : Nat) :
    (s.recordCheck n).outQ = noticesOut s.outQ ((s.record? n).bind (Record.dueNotice s.clusterUp)).toList := by
  unfold State.recordCheck
  rw [State.freeStep_frame, State.drainStep_frame]
  exact (State.noticeStep_effect s n).2

theorem State.recordCheck_clusterUp (s : State) (n : Nat) : (s.recordCheck n).clusterUp = s.clusterUp := by
  rw [State.recordCheck_frame]

/-! ## The pass of the checks over several records -/

/-- The checks at the records `ns`. -/
theorem State.record?_recordChecks (s : State) (ns : List Nat) (m : Nat) :
    (s.each ns State.recordCheck).record? m =
      if m ∈ ns then (s.record? m).bind (Record.checked s.clusterUp) else s.record? m := by
  have h := State.record?_each (fun t => t.clusterUp = s.clusterUp) (F := State.recordCheck) (key := fun n : Nat => n)
    (fun t n ht => (State.recordCheck_clusterUp t n).trans ht)
    (fun t n m ht => by rw [State.record?_recordCheck, ht]) (Record.checked_checked s.clusterUp) ns s rfl m
  rwa [List.map_id'] at h

/-- The checks change only records, key index, extent pool, output queue and counters. -/
theorem State.recordChecks_frame (s : State) (ns : List Nat) :
    s.each ns State.recordCheck =
      { s with
        records := (s.each ns State.recordCheck).records
        keyIndex := (s.each ns State.recordCheck).keyIndex
        pool := (s.each ns State.recordCheck).pool
        outQ := (s.each ns State.recordCheck).outQ
        counters := (s.each ns State.recordCheck).counters } := by
  refine State.each_keeps (fun t => t = { s with
      records := t.records, keyIndex := t.keyIndex, pool := t.pool, outQ := t.outQ, counters := t.counters }) ns _
    (fun t n _ ht => ?_) s rfl
  rw [State.recordCheck_frame, ht]

/-- Notices only lengthen the queue. -/
theorem isPrefix_noticesOut (q : List OutFrame) (ns : List (Record × RecOutcome)) : q <+: noticesOut q ns := by
  induction ns generalizing q with
  | nil => exact List.prefix_rfl
  | cons e ns ih =>
    refine List.IsPrefix.trans ?_ (ih _)
    dsimp only [queuedOut]
    split
    · exact List.prefix_append _ _
    · exact List.prefix_rfl

theorem State.isPrefix_recordChecks_outQ (s : State) (ns : List Nat) : s.outQ <+: (s.each ns State.recordCheck).outQ := by
  refine State.each_keeps (fun t => s.outQ <+: t.outQ) ns _ (fun t n _ ht => ht.trans ?_) s List.prefix_rfl
  rw [State.recordCheck_outQ]
  exact isPrefix_noticesOut _ _

/-- The pass over distinct records offers their due notices to the queue, in the order of the pass. -/
theorem State.recordChecks_outQ (s : State) {ns : List Nat} (hd : ns.Nodup) :
    (s.each ns State.recordCheck).outQ =
      noticesOut s.outQ (ns.filterMap fun n => (s.record? n).bind (Record.dueNotice s.clusterUp)) := by
  induction ns generalizing s with
  | nil => rfl
  | cons n ns ih =>
    obtain ⟨hn, hd⟩ := List.nodup_cons.mp hd
    have hcons : s.each (n :: ns) State.recordCheck = (s.recordCheck n).each ns State.recordCheck := rfl
    have hrest : (ns.filterMap fun m => ((s.recordCheck n).record? m).bind (Record.dueNotice (s.recordCheck n).clusterUp)) =
        ns.filterMap fun m => (s.record? m).bind (Record.dueNotice s.clusterUp) := by
      refine List.filterMap_congr fun m hm => ?_
      rw [State.recordCheck_clusterUp, State.record?_recordCheck, if_neg fun e => hn (by rwa [← e])]
    rw [hcons, ih _ hd, hrest, State.recordCheck_outQ, List.filterMap_cons]
    cases (s.record? n).bind (Record.dueNotice s.clusterUp) <;> rfl

/-- With a place left at the end, the due notice of each record of the pass stands in the queue. -/
theorem State.dueNotice_mem_outQ {s : State} {n : Nat} {x : Record} {e : Record × RecOutcome} (hx : s.record? n = some x)
    (he : x.dueNotice s.clusterUp = some e) {ns : List Nat} (hn : n ∈ ns)
    (hroom : (s.each ns State.recordCheck).outQ.length < Config.outPlaces) :
    ({ dst := e.1.station, payload := noticePayload e.1 e.2 } : OutFrame) ∈ (s.each ns State.recordCheck).outQ := by
  induction ns generalizing s with
  | nil => cases hn
  | cons m ns ih =>
    have hcons : s.each (m :: ns) State.recordCheck = (s.recordCheck m).each ns State.recordCheck := rfl
    rw [hcons] at hroom ⊢
    by_cases hm : n = m
    · have hgrows := State.isPrefix_recordChecks_outQ (s.recordCheck m) ns
      have hplaced : (s.recordCheck m).outQ = queuedOut s.outQ e.1.station (noticePayload e.1 e.2) := by
        rw [State.recordCheck_outQ, ← hm, hx, Option.bind_some, he]
        rfl
      refine hgrows.subset ?_
      have hshort : s.outQ.length < 512 := by
        refine lt_of_le_of_lt (List.IsPrefix.length_le (List.IsPrefix.trans ?_ hgrows)) hroom
        rw [State.recordCheck_outQ]
        exact isPrefix_noticesOut _ _
      rw [hplaced, queuedOut, if_pos hshort]
      exact List.mem_append_right _ List.mem_cons_self
    · refine ih ?_ (by rwa [State.recordCheck_clusterUp]) ((List.mem_cons.mp hn).resolve_left hm) hroom
      rw [State.record?_recordCheck, if_neg hm, hx]

/-! ## Counts of records' work -/

/-- A counter that no slot's end, notice or dropped frame counts. -/
def Counter.apartFromRecords (c : Counter) : Prop :=
  (∀ i, c.key ≠ (Counter.ingest i).key) ∧ c.key ≠ (Counter.ports .clusterOutDrop).key

theorem IngestCounter.place_lt (c : IngestCounter) : c.place < 64 := by
  cases c <;> decide

theorem Counter.route_apartFromRecords (r : RouteId) (c : RouteCounter) : (Counter.route r c).apartFromRecords := by
  have hdrop : PortCounter.clusterOutDrop.place < 64 := by decide
  refine ⟨fun i => ?_, ?_⟩
  · have hi := i.place_lt
    simp only [Counter.key, counterKey]
    omega
  · simp only [Counter.key, counterKey]
    omega

theorem Counter.management_apartFromRecords (c : MgmtCounter) : (Counter.management c).apartFromRecords := by
  refine ⟨fun i => ?_, by cases c <;> decide⟩
  have hi := i.place_lt
  have hc : c.place < 64 := by cases c <;> decide
  simp only [Counter.key, counterKey]
  omega

section

variable {c : Counter} (hc : c.apartFromRecords)

include hc

theorem State.counter_endSlot (s : State) (n : Nat) (r : RouteId) (st : SlotState) :
    (s.endSlot n r st).counter c = s.counter c := by
  cases hx : s.record? n with
  | none =>
    unfold State.endSlot
    rw [hx]
  | some x =>
    obtain ⟨h, _⟩ | h := State.endSlot_of_record hx r st <;> rw [h]
    unfold State.countSlot
    split
    · exact State.counter_count_of_key_ne _ (hc.1 _)
    · rfl

theorem State.counter_recordCheck (s : State) (n : Nat) : (s.recordCheck n).counter c = s.counter c := by
  have hnotice : (s.noticeStep n).counter c = s.counter c := by
    unfold State.noticeStep
    split
    · rfl
    · split
      · rfl
      · split
        · rw [State.counter_count_of_key_ne _ (hc.1 _), State.counter_placeOut_of_key_ne _ _ _ hc.2]
          rfl
        · rfl
  have hdrain : ((s.noticeStep n).drainStep n).counters = (s.noticeStep n).counters := by rw [State.drainStep_frame]
  exact (State.counter_congr ((State.freeStep_counters _ n).trans hdrain) c).trans hnotice

theorem State.counter_recordChecks (s : State) (ns : List Nat) : (s.each ns State.recordCheck).counter c = s.counter c :=
  State.each_keeps (fun t => t.counter c = s.counter c) ns _ (fun t n _ ht => (State.counter_recordCheck hc t n).trans ht) s rfl

end

/-! ## The end of an event (R189) -/

theorem State.alertFrom_outQ (s t : State) : (s.alertFrom t).outQ = alertedOut s t t.outQ := by
  unfold State.alertFrom State.sendAlert alertedOut
  by_cases h : t.latches &&& ~~~s.latches &&& t.mask = 0
  · rw [if_pos h, if_pos (.inl h)]
  · by_cases hm : t.settings.mgmtStation = 0
    · rw [if_neg h, if_pos hm, if_pos (.inr hm)]
    · rw [if_neg h, if_neg hm, if_neg (not_or.mpr ⟨h, hm⟩)]
      exact State.placeOut_outQ t _ _

/-- An alert counts ALERTS_SENT and CLUSTER_OUT_DROP at most. -/
theorem State.counter_alertFrom_of_key_ne (s t : State) {c : Counter} (ha : c.key ≠ (Counter.management .alertsSent).key)
    (hd : c.key ≠ (Counter.ports .clusterOutDrop).key) : (s.alertFrom t).counter c = t.counter c := by
  unfold State.alertFrom State.sendAlert
  split
  · rfl
  · split
    · rfl
    · rw [State.counter_count_of_key_ne _ ha, State.counter_placeOut_of_key_ne _ _ _ hd]

theorem Counter.route_key_ne_alertsSent (r : RouteId) (c : RouteCounter) :
    (Counter.route r c).key ≠ (Counter.management .alertsSent).key := by
  have halerts : MgmtCounter.alertsSent.place < 64 := by decide
  simp only [Counter.key, counterKey]
  omega

/-- An alert is not counted in a route's group. -/
theorem State.counter_alertFrom_route (s t : State) (r : RouteId) (c : RouteCounter) :
    (s.alertFrom t).counter (.route r c) = t.counter (.route r c) :=
  State.counter_alertFrom_of_key_ne s t (Counter.route_key_ne_alertsSent r c) (Counter.route_apartFromRecords r c).2

theorem isPrefix_alertedOut (s t : State) (q : List OutFrame) : q <+: alertedOut s t q := by
  unfold alertedOut queuedOut
  split
  · exact List.prefix_rfl
  · split
    · exact List.prefix_append _ _
    · exact List.prefix_rfl

@[simp] theorem State.alertFrom_routes (s t : State) : (s.alertFrom t).routes = t.routes := by rw [State.alertFrom_frame]

@[simp] theorem State.alertFrom_records (s t : State) : (s.alertFrom t).records = t.records := by rw [State.alertFrom_frame]

end Sys2Proof.Machine
end

section
/-! SUPPORT. The statement of settlement (R62, R66 to R68, R113, R114, R119): the settling of an epoch, what an advance keeps of what it
settles, two receipts taken in turn against one, then the obligation. -/

namespace Sys2Proof.Machine

/-! ## A named slot settles (R62) -/

/-- A slot in a state that a settlement ends. -/
def SlotState.settleable (v : SlotState) : Bool := v == .sent || v == .receipted

/-- Record `x` once its slot on route `r` settled, where it was SENT or RECEIPTED (R62). -/
def Record.settled (x : Record) (r : RouteId) (faulted : Bool) : Record :=
  if (x.slotState r).any SlotState.settleable then x.ended r (settledState faulted) else x

theorem SlotState.settleable_iff (v : SlotState) : v.settleable = true ↔ v = .sent ∨ v = .receipted := by
  cases v <;> decide

theorem SlotState.terminal_of_settleable {v : SlotState} (h : v.settleable = true) : v.terminal = false := by
  rcases (SlotState.settleable_iff v).mp h with rfl | rfl <;> rfl

theorem Record.slotState_settled (x : Record) (r : RouteId) (faulted : Bool) :
    (x.settled r faulted).slotState r =
      if (x.slotState r).any SlotState.settleable then some (settledState faulted) else x.slotState r := by
  unfold Record.settled
  cases hv : x.slotState r with
  | none => simp [hv]
  | some v =>
    cases ht : v.settleable with
    | true => simp [ht, Record.slotState_ended, hv, SlotState.terminal_of_settleable ht]
    | false => simp [ht, hv]

theorem Record.settled_settled (x : Record) (r : RouteId) (faulted : Bool) :
    (x.settled r faulted).settled r faulted = x.settled r faulted := by
  by_cases h : (x.slotState r).any SlotState.settleable = true
  · have hend : x.settled r faulted = x.ended r (settledState faulted) := if_pos h
    have hstate := Record.slotState_settled x r faulted
    rw [if_pos h] at hstate
    refine if_neg ?_
    rw [hstate]
    cases faulted <;> decide
  · have hend : x.settled r faulted = x := if_neg h
    rw [hend, hend]

/-- A named slot settles, or the state stays. -/
theorem State.settleSlot_cases (s : State) (r : RouteId) (faulted : Bool) (n : Nat) :
    s.settleSlot r faulted n =
      if ((s.record? n).bind fun x => x.slotState r).any SlotState.settleable then s.endSlot n r (settledState faulted) else s := by
  unfold State.settleSlot
  cases (s.record? n).bind fun x => x.slotState r with
  | none => rfl
  | some v => cases v <;> rfl

theorem State.record?_settleSlot (s : State) (r : RouteId) (faulted : Bool) (n m : Nat) :
    (s.settleSlot r faulted n).record? m =
      if m = n then (s.record? m).bind fun x => some (x.settled r faulted) else s.record? m := by
  rw [State.settleSlot_cases]
  by_cases hm : m = n
  · subst hm
    rw [if_pos rfl]
    cases hx : s.record? m with
    | none => simp [hx]
    | some x =>
      simp only [Option.bind_some, Record.settled]
      split
      · rw [State.record?_endSlot, if_pos rfl, hx, Option.bind_some]
      · exact hx
  · rw [if_neg hm]
    split
    · rw [State.record?_endSlot, if_neg hm]
    · rfl

theorem State.settleSlot_frame (s : State) (r : RouteId) (faulted : Bool) (n : Nat) :
    s.settleSlot r faulted n =
      { s with records := (s.settleSlot r faulted n).records, counters := (s.settleSlot r faulted n).counters } := by
  rw [State.settleSlot_cases]
  split
  · exact State.endSlot_frame s n r _
  · rfl

/-! ## An epoch settles (R119, R156) -/

/-- The named slots settle, one after the other (R119). -/
def State.settleSlots (s : State) (r : RouteId) (faulted : Bool) (ns : List Nat) : State :=
  s.each ns fun s n => s.settleSlot r faulted n

theorem State.settleSlots_frame (s : State) (r : RouteId) (faulted : Bool) (ns : List Nat) :
    s.settleSlots r faulted ns =
      { s with records := (s.settleSlots r faulted ns).records, counters := (s.settleSlots r faulted ns).counters } := by
  refine State.each_keeps (fun t => t = { s with records := t.records, counters := t.counters }) ns _ (fun t n _ ht => ?_) s rfl
  rw [State.settleSlot_frame, ht]

theorem State.record?_settleSlots (s : State) (r : RouteId) (faulted : Bool) (ns : List Nat) (m : Nat) :
    (s.settleSlots r faulted ns).record? m =
      if m ∈ ns then (s.record? m).map fun x => x.settled r faulted else s.record? m := by
  have h := State.record?_each (fun _ => True) (key := fun n : Nat => n) (fun _ _ _ => trivial)
    (fun s n m _ => State.record?_settleSlot s r faulted n m) (fun x => congrArg some (Record.settled_settled x r faulted)) ns s
    trivial m
  rw [List.map_id'] at h
  rw [State.settleSlots, h]
  cases s.record? m <;> rfl

theorem State.counter_settleSlots {c : Counter} (hc : c.apartFromRecords) (s : State) (r : RouteId) (faulted : Bool) (ns : List Nat) :
    (s.settleSlots r faulted ns).counter c = s.counter c := by
  refine State.each_keeps (fun t => t.counter c = s.counter c) ns _ (fun t n _ ht => Eq.trans ?_ ht) s rfl
  rw [State.settleSlot_cases]
  split
  · exact State.counter_endSlot hc t n r _
  · rfl

/-- The marker's epoch is recorded as settled, and counted (R119, R156). -/
def State.recordSettled (s : State) (r : RouteId) (epoch : Word) (faulted : Bool) : State :=
  let s3 := s.updCtl r fun c => { c with marker := none, settledEpoch := epoch, settledFault := faulted }
  let s4 := s3.countRoute r .epochsSettled
  if faulted then (s4.countRoute r .epochsFaulted).latch .epochFault else s4

/-- The records named by the entries ahead of marker sequence `m` (R119). -/
def State.settledRecords (s : State) (r : RouteId) (m : Word) : List Nat :=
  (settledEntries (s.route r).tx.settleQ m).map (·.record)

/-- The entries ahead of marker sequence `m` leave the settlement queue (R119). -/
def State.dropSettled (s : State) (r : RouteId) (m : Word) : State :=
  s.updTx r fun t => { t with settleQ := t.settleQ.drop (settledEntries (s.route r).tx.settleQ m).length }

theorem State.settleEpoch_eq (s : State) (r : RouteId) (m epoch : Word) (faulted : Bool) :
    s.settleEpoch r m epoch faulted =
      ((((s.dropSettled r m).settleSlots r faulted (s.settledRecords r m)).recordSettled r epoch faulted).each
        (s.settledRecords r m) State.recordCheck) := rfl

section

variable (s : State) (r : RouteId) (m epoch : Word) (faulted : Bool)

theorem State.recordSettled_frame :
    s.recordSettled r epoch faulted =
      { s with
        routes := (s.recordSettled r epoch faulted).routes
        latches := if faulted then s.latches ||| 0x0200 else s.latches
        counters := (s.recordSettled r epoch faulted).counters } := by
  cases faulted <;> rfl

theorem State.recordSettled_routes :
    (s.recordSettled r epoch faulted).routes =
      (s.updCtl r fun c => { c with marker := none, settledEpoch := epoch, settledFault := faulted }).routes := by
  cases faulted <;> rfl

theorem State.route_recordSettled_self :
    (s.recordSettled r epoch faulted).route r =
      { s.route r with ctl := { (s.route r).ctl with marker := none, settledEpoch := epoch, settledFault := faulted } } := by
  rw [State.route_congr (State.recordSettled_routes s r epoch faulted), State.route_updCtl_self]

theorem State.route_recordSettled_of_ne {p : RouteId} (hp : p ≠ r) :
    (s.recordSettled r epoch faulted).route p = s.route p := by
  rw [State.route_congr (State.recordSettled_routes s r epoch faulted), State.route_updCtl_of_ne _ _ hp]

theorem State.recordSettled_counted :
    s.counted (s.recordSettled r epoch faulted) 1 (.route r .epochsSettled) ∧
      s.counted (s.recordSettled r epoch faulted) (if faulted then 1 else 0) (.route r .epochsFaulted) := by
  have hapart : (Counter.route r .epochsSettled).key ≠ (Counter.route r .epochsFaulted).key :=
    Counter.key_route_ne_of_place r (by decide)
  have hsettled (u : State) : (u.countRoute r .epochsFaulted).counter (.route r .epochsSettled) = u.counter (.route r .epochsSettled) :=
    State.counter_count_of_key_ne u hapart
  have hfaulted (u : State) : (u.countRoute r .epochsSettled).counter (.route r .epochsFaulted) = u.counter (.route r .epochsFaulted) :=
    State.counter_count_of_key_ne u hapart.symm
  cases faulted with
  | false => exact ⟨State.count_counted s _, State.counted_zero_of_eq (hfaulted s)⟩
  | true =>
    refine ⟨fun _ => (hsettled _).trans (State.counter_count_self s _), fun _ => ?_⟩
    exact (State.counter_count_self (s.countRoute r .epochsSettled) _).trans (by rw [hfaulted]; rfl)

/-- The settling of an epoch changes routes, records, key index, pool, output queue, counters, and latches EPOCH_FAULT where faulted. -/
theorem State.settleEpoch_frame :
    s.settleEpoch r m epoch faulted =
      { s with
        routes := (s.settleEpoch r m epoch faulted).routes
        records := (s.settleEpoch r m epoch faulted).records
        keyIndex := (s.settleEpoch r m epoch faulted).keyIndex
        pool := (s.settleEpoch r m epoch faulted).pool
        outQ := (s.settleEpoch r m epoch faulted).outQ
        latches := if faulted then s.latches ||| 0x0200 else s.latches
        counters := (s.settleEpoch r m epoch faulted).counters } := by
  rw [State.settleEpoch_eq, State.recordChecks_frame, State.recordSettled_frame, State.settleSlots_frame]
  rfl

theorem State.settleEpoch_routes :
    (s.settleEpoch r m epoch faulted).routes = ((s.dropSettled r m).recordSettled r epoch faulted).routes := by
  rw [State.settleEpoch_eq, State.recordChecks_frame, State.settleSlots_frame]
  cases faulted <;> rfl

theorem State.route_settleEpoch_self :
    (s.settleEpoch r m epoch faulted).route r =
      { s.route r with
        tx := { (s.route r).tx with
          settleQ := (s.route r).tx.settleQ.drop (settledEntries (s.route r).tx.settleQ m).length }
        ctl := { (s.route r).ctl with marker := none, settledEpoch := epoch, settledFault := faulted } } := by
  rw [State.route_congr (State.settleEpoch_routes s r m epoch faulted), State.route_recordSettled_self, State.dropSettled,
    State.route_updTx_self]

theorem State.route_settleEpoch_of_ne {p : RouteId} (hp : p ≠ r) : (s.settleEpoch r m epoch faulted).route p = s.route p := by
  rw [State.route_congr (State.settleEpoch_routes s r m epoch faulted), State.route_recordSettled_of_ne _ _ _ _ hp,
    State.dropSettled, State.route_updTx_of_ne _ _ hp]

/-- The state in which the checks of a settled epoch begin. -/
def State.beforeChecks : State :=
  ((s.dropSettled r m).settleSlots r faulted (s.settledRecords r m)).recordSettled r epoch faulted

theorem State.record?_beforeChecks (n : Nat) :
    (s.beforeChecks r m epoch faulted).record? n =
      if n ∈ s.settledRecords r m then (s.record? n).map fun x => x.settled r faulted else s.record? n := by
  unfold State.beforeChecks
  rw [State.recordSettled_frame]
  change ((s.dropSettled r m).settleSlots r faulted (s.settledRecords r m)).record? n = _
  rw [State.record?_settleSlots]
  rfl

theorem State.beforeChecks_clusterUp : (s.beforeChecks r m epoch faulted).clusterUp = s.clusterUp := by
  rw [State.beforeChecks, State.recordSettled_frame, State.settleSlots_frame]
  rfl

/-- The records of a settled epoch: each named one settled and checked, the others as they were. -/
theorem State.record?_settleEpoch (n : Nat) :
    (s.settleEpoch r m epoch faulted).record? n =
      if n ∈ s.settledRecords r m then (s.record? n).bind fun x => (x.settled r faulted).checked s.clusterUp
      else s.record? n := by
  rw [State.settleEpoch_eq, ← State.beforeChecks, State.record?_recordChecks, State.record?_beforeChecks,
    State.beforeChecks_clusterUp]
  split
  · cases s.record? n <;> rfl
  · rfl

theorem State.settleEpoch_counted :
    s.counted (s.settleEpoch r m epoch faulted) 1 (.route r .epochsSettled) ∧
      s.counted (s.settleEpoch r m epoch faulted) (if faulted then 1 else 0) (.route r .epochsFaulted) := by
  obtain ⟨hsettled, hfaulted⟩ :=
    State.recordSettled_counted ((s.dropSettled r m).settleSlots r faulted (s.settledRecords r m)) r epoch faulted
  have hbefore (c : RouteCounter) :
      ((s.dropSettled r m).settleSlots r faulted (s.settledRecords r m)).counter (.route r c) = s.counter (.route r c) :=
    State.counter_settleSlots (Counter.route_apartFromRecords r c) _ r faulted _
  have hafter (c : RouteCounter) : (s.settleEpoch r m epoch faulted).counter (.route r c) =
      (s.beforeChecks r m epoch faulted).counter (.route r c) :=
    State.counter_recordChecks (Counter.route_apartFromRecords r c) _ _
  unfold State.counted at hsettled hfaulted ⊢
  rw [hbefore] at hsettled hfaulted
  rw [hafter, hafter]
  exact ⟨hsettled, hfaulted⟩

end

/-- What a settled epoch leaves of a named record's slot on the route (R62). -/
theorem State.slotState_settleEpoch {s : State} {r : RouteId} {m epoch : Word} {faulted : Bool} {n : Nat} {z w : Record}
    (hn : n ∈ s.settledRecords r m) (hz : s.record? n = some z) (hw : (s.settleEpoch r m epoch faulted).record? n = some w) :
    w.slotState r = if z.slotState r = some .sent ∨ z.slotState r = some .receipted then some (settledState faulted)
      else z.slotState r := by
  rw [State.record?_settleEpoch, if_pos hn, hz, Option.bind_some] at hw
  have hslots : w.slotState r = (z.settled r faulted).slotState r := by
    rw [Record.checked_eq hw]
    rfl
  rw [hslots, Record.slotState_settled]
  refine if_congr ?_ rfl rfl
  cases z.slotState r with
  | none => simp
  | some v => simp [SlotState.settleable_iff]

/-! ## The outcome that a settlement fixes (R66) -/

/-- One slot's part in the counts of R66. -/
theorem settledAndOpen_insert (a b : List Slot) (sl : Slot) :
    settledAndOpen (a ++ sl :: b) =
      ((settledAndOpen (a ++ b)).1 + (if sl.required && sl.state == .settled then 1 else 0),
        (settledAndOpen (a ++ b)).2 + if sl.required && !sl.state.terminal then 1 else 0) := by
  simp only [settledAndOpen, List.countP_append, List.countP_cons]
  congr 1 <;> omega

/-- With its required open slot ended as settled or faulted, a record whose quorum was open has its outcome by the counts of R66. -/
theorem Record.outcome_settled {z : Record} {r : RouteId} {sl : Slot} (faulted : Bool) (hd : (z.slots.map (·.route)).Nodup)
    (hsl : z.slotOn r = some sl) (hreq : sl.required = true) (hst : sl.state.settleable = true) (ho : z.outcome = none)
    (hopen : (settledAndOpen z.slots).1 < z.quorum)
    (hreach : z.quorum ≤ (settledAndOpen z.slots).1 + (settledAndOpen z.slots).2) :
    (z.settled r faulted).outcome =
      if faulted then
        (if (settledAndOpen z.slots).1 + (settledAndOpen z.slots).2 - 1 < z.quorum then some (.voided .faulted) else none)
      else if z.quorum ≤ (settledAndOpen z.slots).1 + 1 then some .landed else none := by
  obtain ⟨a, b, hsplit, ha, hb⟩ := Record.slots_split hd hsl
  have hr := (Record.slotOn_eq_some hsl).2
  have hopenSlot := SlotState.terminal_of_settleable hst
  have hunsettled : (sl.state == .settled) = false := by
    rcases (SlotState.settleable_iff _).mp hst with h | h <;> rw [h] <;> rfl
  obtain ⟨y, hy⟩ : ∃ y, y = z.updSlot r fun g => g.endedIn (settledState faulted) := ⟨_, rfl⟩
  have hend : z.settled r faulted = Record.fixOutcome z y ((settledState faulted).reason.getD .abandoned) := by
    have hsettles : (z.slotState r).any SlotState.settleable = true := by simp [Record.slotState, hsl, hst]
    rw [Record.settled, if_pos hsettles, Record.ended, hsl, hy]
    simp only [hopenSlot, hreq, if_true, Bool.false_eq_true, if_false]
  have hafter : y.slots = a ++ sl.endedIn (settledState faulted) :: b := by
    rw [hy, Record.updSlot, hsplit, List.map_append, List.map_cons, if_pos hr]
    have hkept (l : List Slot) (hl : ∀ g ∈ l, g.route ≠ r) :
        (l.map fun g => if g.route = r then g.endedIn (settledState faulted) else g) = l :=
      (List.map_congr_left fun g hg => if_neg (hl g hg)).trans (List.map_id' l)
    rw [hkept a ha, hkept b hb]
  have hbefore := settledAndOpen_insert a b sl
  have hnow := settledAndOpen_insert a b (sl.endedIn (settledState faulted))
  rw [← hsplit, hreq, hunsettled, hopenSlot] at hbefore
  rw [← hafter, Slot.endedIn, hreq] at hnow
  have hyo : y.outcome = none := by rw [hy]; exact ho
  have hyq : y.quorum = z.quorum := by rw [hy]; rfl
  have hlanded : y.landed = decide (z.quorum ≤ (settledAndOpen y.slots).1) := by rw [← hyq]; rfl
  have hvoided : y.voided = decide ((settledAndOpen y.slots).1 + (settledAndOpen y.slots).2 < z.quorum) := by rw [← hyq]; rfl
  have hreached : z.voided = false := decide_eq_false (Nat.not_lt.mpr hreach)
  rw [hend, Record.outcome_fixOutcome z _ hyo, hlanded, hvoided, hreached]
  rw [hbefore] at hopen hreach ⊢
  rw [hnow]
  cases faulted with
  | false =>
    have hkept : ¬ (settledAndOpen (a ++ b)).1 + 1 + (settledAndOpen (a ++ b)).2 < z.quorum := by
      simp only [Bool.true_and, Bool.and_false, Bool.not_false, if_true, Bool.false_eq_true, if_false] at hreach
      omega
    simp [settledState, SlotState.terminal, hkept]
  | true =>
    have hshort : ¬ z.quorum ≤ (settledAndOpen (a ++ b)).1 := by
      simpa using hopen
    simp [settledState, SlotState.terminal, SlotState.reason, hshort]

/-- The slots of a record whose open slot on the route settled. -/
theorem Record.slots_settled {z : Record} {r : RouteId} {sl : Slot} (faulted : Bool) (hd : (z.slots.map (·.route)).Nodup)
    (hsl : z.slotOn r = some sl) (hst : sl.state.settleable = true) :
    (z.settled r faulted).slots = z.slots.map fun g =>
      if g.route ≠ r then g
      else if faulted then { g with state := .faulted, void := some .faulted } else { g with state := .settled, void := none } := by
  have hend : z.settled r faulted = z.ended r (settledState faulted) := if_pos (by simp [Record.slotState, hsl, hst])
  rw [hend, Record.ended_slots _ _ _ hd]
  refine List.map_congr_left fun g hg => ?_
  by_cases hr : g.route = r
  · have hopen : g.state.terminal = false := by
      rw [Record.eq_of_slotOn hd hsl hg hr]
      exact SlotState.terminal_of_settleable hst
    rw [if_pos ⟨hr, hopen⟩, if_neg (not_not_intro hr)]
    cases faulted <;> rfl
  · rw [if_neg fun h => hr h.1, if_pos hr]

/-! ## The receipt taken (R113, R114) -/

theorem exec_receipt_of_read {s : State} {f : Frame} {x : ReceiptFrame} {r : RouteId} (ht : s.takesKind .longhaul 0x22 f = true)
    (hx : readReceipt f.payload = some x) (hr : s.routeOfRegion x.src = some r) (hd : x.dst = s.settings.localRegion.toNat)
    (hc : (s.route r).ctl.state ≠ .closed) (ho : (s.route r).ctl.state ≠ .opening) :
    exec (.receipt f) s = .next (s.alertFrom (s.takeReceipt r x)) := by
  have harrives : s.receiptArrives f = s.takeReceipt r x := by
    unfold State.receiptArrives
    rw [hx]
    dsimp only
    rw [hr]
    dsimp only
    rw [if_neg (not_or.mpr ⟨not_not_intro hd, hc⟩), if_neg ho]
  change execReceipt f s = _
  unfold execReceipt
  rw [if_pos ht, harrives]

/-- A receipt whose through sequence is behind the window: its gaps, then its settled epoch (R114). -/
theorem State.takeReceipt_of_behind {s : State} {r : RouteId} {x : ReceiptFrame} (hw : ∀ d ∈ (s.route r).tx.window, d.seq ≠ x.through)
    (hb : (s.route r).tx.behind x.through) :
    s.takeReceipt r x =
      ((s.countRoute r .receiptsTaken).each x.gaps fun s g => s.takeGap r g).takeEpoch r x.epoch x.faulted := by
  have hdesc : ((s.route r).tx.desc? x.through).isSome = false := by
    rw [Option.isSome_eq_false_iff, Option.isNone_iff_eq_none, Transmit.desc?, List.find?_eq_none]
    intro d hd
    simpa using hw d hd
  have hbehind : behindWindow (s.route r).tx.through x.through = true := by
    simpa [behindWindow, Transmit.behind, or_assoc] using hb
  unfold State.takeReceipt
  dsimp only
  rw [if_neg (by rw [hdesc]; decide), if_pos hbehind]

/-- A receipt whose through sequence the window holds: the advance comes first (R114). -/
theorem State.takeReceipt_of_window {s : State} {r : RouteId} {x : ReceiptFrame} (hw : ∃ d ∈ (s.route r).tx.window, d.seq = x.through) :
    s.takeReceipt r x =
      (((s.countRoute r .receiptsTaken).cumulative r x.through).each x.gaps fun s g => s.takeGap r g).takeEpoch r x.epoch
        x.faulted := by
  have hdesc : ((s.route r).tx.desc? x.through).isSome = true := by
    rw [Transmit.desc?, List.find?_isSome]
    obtain ⟨d, hd, hseq⟩ := hw
    exact ⟨d, hd, by simpa using hseq⟩
  unfold State.takeReceipt
  dsimp only
  rw [if_pos hdesc]

/-- The settled epoch of the outstanding marker, once transmitted, settles (R119). -/
theorem State.takeEpoch_of_marker {s : State} {r : RouteId} {m : Marker} {q : Word} (hm : (s.route r).ctl.marker = some m)
    (hq : m.seq = some q) (faulted : Bool) : s.takeEpoch r m.epoch faulted = s.settleEpoch r q m.epoch faulted := by
  unfold State.takeEpoch
  rw [hm]
  dsimp only
  rw [hq]
  exact if_pos rfl

/-- Any other settled epoch does nothing (R119). -/
theorem State.takeEpoch_of_other {s : State} {r : RouteId} {epoch : Word}
    (hm : ∀ m, (s.route r).ctl.marker = some m → m.epoch ≠ epoch) (faulted : Bool) : s.takeEpoch r epoch faulted = s := by
  unfold State.takeEpoch
  split
  · rfl
  next m hmarker =>
    split
    · rfl
    · exact if_neg (hm m hmarker)

/-! ## A receipt behind the window that settles -/

/-- Where it is due, the notice of a settled record goes out and the record is DRAINING with its last slot (R67, R68). -/
theorem Record.checked_fields {up : Bool} {x w : Record} (h : x.checked up = some w) :
    let sends := x.outcome.isSome ∧ x.state = .live ∧ x.notice = .owed ∧ up = true
    w.outcome = x.outcome ∧ w.slots = x.slots ∧ w.notice = (if sends then .sent else x.notice) ∧
      w.state = if x.state = .live ∧ w.notice = .sent ∧ x.slots.all (·.state.terminal) = true then .draining else x.state := by
  have hnotice : (x.noticed up).notice =
      if x.outcome.isSome ∧ x.state = .live ∧ x.notice = .owed ∧ up = true then .sent else x.notice := by
    unfold Record.noticed
    split <;> rfl
  have hstate : (x.noticed up).drained.state =
      if x.state = .live ∧ (x.noticed up).notice = .sent ∧ x.slots.all (·.state.terminal) = true then .draining else x.state := by
    rw [Record.noticed_eq, Record.drained]
    dsimp only
    split
    next hd => rw [if_pos (by exact hd)]
    next hd => rw [if_neg (by exact hd)]
  rw [Record.checked_eq h]
  exact ⟨rfl, rfl, hnotice, hstate⟩

/-- The effect of a settling receipt behind the window on the state, the records named, and the counts. -/
theorem State.receipt_settles (s : State) (f : Frame) (x : ReceiptFrame) (r : RouteId) (m : Marker) (q : Word)
    (ht : s.takesKind .longhaul 0x22 f = true) (hx : readReceipt f.payload = some x) (hr : s.routeOfRegion x.src = some r)
    (hd : x.dst = s.settings.localRegion.toNat) (hc : (s.route r).ctl.state ≠ .closed) (ho : (s.route r).ctl.state ≠ .opening)
    (hw : ∀ d ∈ (s.route r).tx.window, d.seq ≠ x.through) (hb : (s.route r).tx.behind x.through) (hg : x.gaps = [])
    (hm : (s.route r).ctl.marker = some m) (hq : m.seq = some q) (he : m.epoch = x.epoch) :
    exec (.receipt f) s = .next (s.alertFrom ((s.countRoute r .receiptsTaken).settleEpoch r q x.epoch x.faulted)) := by
  have hsettles := State.takeEpoch_of_marker (s := s.countRoute r .receiptsTaken) (r := r) hm hq x.faulted
  rw [he] at hsettles
  rw [exec_receipt_of_read ht hx hr hd hc ho, State.takeReceipt_of_behind hw hb, hg]
  exact congrArg (fun t => Host.Outcome.next (s.alertFrom t)) hsettles

/-- A settlement changes a record's slots and outcome only. -/
theorem Record.settled_eq (z : Record) (r : RouteId) (faulted : Bool) :
    z.settled r faulted = { z with slots := (z.settled r faulted).slots, outcome := (z.settled r faulted).outcome } := by
  unfold Record.settled
  split
  · exact Record.ended_eq z r _
  · rfl

/-- The closing notice that a settlement makes due stands in the queue, with the settled set, where a place is left at the end. -/
theorem State.settled_notice_mem_outQ {s : State} {r : RouteId} {m epoch : Word} {faulted : Bool} {n : Nat} {z : Record} {v : RecOutcome}
    (hn : n ∈ s.settledRecords r m) (hz : s.record? n = some z) (hv : (z.settled r faulted).outcome = some v)
    (hlive : z.state = .live) (howed : z.notice = .owed) (hup : s.clusterUp = true)
    (hroom : (s.settleEpoch r m epoch faulted).outQ.length < 512) :
    ({ dst := z.station, payload := noticePayload { z with slots := (z.settled r faulted).slots } v } : OutFrame) ∈
      (s.settleEpoch r m epoch faulted).outQ := by
  have hrecord : (s.beforeChecks r m epoch faulted).record? n = some (z.settled r faulted) := by
    rw [State.record?_beforeChecks, if_pos hn, hz, Option.map_some]
  have heq := Record.settled_eq z r faulted
  have hdue : (z.settled r faulted).dueNotice (s.beforeChecks r m epoch faulted).clusterUp = some (z.settled r faulted, v) := by
    rw [State.beforeChecks_clusterUp, Record.dueNotice, hv, if_pos, Option.map_some]
    rw [heq]
    exact ⟨hlive, howed, hup⟩
  have hmem := State.dueNotice_mem_outQ hrecord hdue hn hroom
  rw [heq] at hmem
  exact hmem

/-- A count of receipts leaves the counters of settled epochs. -/
theorem State.counted_settleEpoch_of_taken (s : State) (r : RouteId) (m epoch : Word) (faulted : Bool) :
    s.counted ((s.countRoute r .receiptsTaken).settleEpoch r m epoch faulted) 1 (.route r .epochsSettled) ∧
      s.counted ((s.countRoute r .receiptsTaken).settleEpoch r m epoch faulted) (if faulted then 1 else 0)
        (.route r .epochsFaulted) := by
  obtain ⟨hsettled, hfaulted⟩ := State.settleEpoch_counted (s.countRoute r .receiptsTaken) r m epoch faulted
  have hs : (s.countRoute r .receiptsTaken).counter (.route r .epochsSettled) = s.counter (.route r .epochsSettled) :=
    State.counter_count_of_key_ne s (Counter.key_route_ne_of_place r (by decide))
  have hf : (s.countRoute r .receiptsTaken).counter (.route r .epochsFaulted) = s.counter (.route r .epochsFaulted) :=
    State.counter_count_of_key_ne s (Counter.key_route_ne_of_place r (by decide))
  unfold State.counted at hsettled hfaulted ⊢
  rw [hs] at hsettled
  rw [hf] at hfaulted
  exact ⟨hsettled, hfaulted⟩

end Sys2Proof.Machine
end

section
/-! SUPPORT. What an advance of the cumulative point keeps of what a settlement reads (R115, R116, R121, R134): the settlement queue,
the outstanding marker, the count of settled epochs, and which slots settle. -/

namespace Sys2Proof.Machine

/-! ## What a settlement reads -/

/-- Two slot states that a settlement treats alike: equal, or both SENT or RECEIPTED (R62). -/
def settlesAlike (a b : Option SlotState) : Prop := a = b ∨ a.any SlotState.settleable = true ∧ b.any SlotState.settleable = true

theorem settlesAlike.trans {a b c : Option SlotState} (h : settlesAlike a b) (k : settlesAlike b c) : settlesAlike a c := by
  rcases h with rfl | ⟨ha, hb⟩
  · exact k
  · rcases k with rfl | ⟨_, hc⟩
    · exact .inr ⟨ha, hb⟩
    · exact .inr ⟨ha, hc⟩

/-- From `s` to `t` what a settlement at route `r` reads is kept: the settlement queue, receipted-through, the outstanding marker, the
count of settled epochs; and each record that still stands has a slot that settles alike. -/
structure State.KeepsSettling (r : RouteId) (s t : State) : Prop where
  settleQ : (t.route r).tx.settleQ = (s.route r).tx.settleQ
  through : (t.route r).tx.through = (s.route r).tx.through
  marker : (t.route r).ctl.marker = (s.route r).ctl.marker
  counter : t.counter (.route r .epochsSettled) = s.counter (.route r .epochsSettled)
  record : ∀ n w, t.record? n = some w → ∃ z, s.record? n = some z ∧ settlesAlike (z.slotState r) (w.slotState r)

namespace State.KeepsSettling

variable {r : RouteId} {s t u : State}

theorem refl (r : RouteId) (s : State) : State.KeepsSettling r s s := ⟨rfl, rfl, rfl, rfl, fun _ w hw => ⟨w, hw, .inl rfl⟩⟩

theorem trans (h : State.KeepsSettling r s t) (k : State.KeepsSettling r t u) : State.KeepsSettling r s u where
  settleQ := k.settleQ.trans h.settleQ
  through := k.through.trans h.through
  marker := k.marker.trans h.marker
  counter := k.counter.trans h.counter
  record n w hw := by
    obtain ⟨y, hy, hyw⟩ := k.record n w hw
    obtain ⟨z, hz, hzy⟩ := h.record n y hy
    exact ⟨z, hz, hzy.trans hyw⟩

/-- A change of the route that keeps its settlement queue, receipted-through and outstanding marker. -/
theorem updRoute (f : Route → Route)
    (hf : ∀ x, (f x).tx.settleQ = x.tx.settleQ ∧ (f x).tx.through = x.tx.through ∧ (f x).ctl.marker = x.ctl.marker) :
    State.KeepsSettling r s (s.updRoute r f) := by
  obtain ⟨hqueue, hthrough, hmarker⟩ := hf (s.route r)
  rw [← State.route_updRoute_self s r f] at hqueue hthrough hmarker
  exact ⟨hqueue, hthrough, hmarker, rfl, fun _ w hw => ⟨w, hw, .inl rfl⟩⟩

theorem updTx (f : Transmit → Transmit) (hf : ∀ t, (f t).settleQ = t.settleQ ∧ (f t).through = t.through) :
    State.KeepsSettling r s (s.updTx r f) := updRoute _ fun x => ⟨(hf x.tx).1, (hf x.tx).2, rfl⟩

theorem updPace (f : Pacing → Pacing) : State.KeepsSettling r s (s.updPace r f) := updRoute _ fun _ => ⟨rfl, rfl, rfl⟩

theorem updCtl (f : Control → Control) (hf : ∀ c, (f c).marker = c.marker) : State.KeepsSettling r s (s.updCtl r f) :=
  updRoute _ fun x => ⟨rfl, rfl, hf x.ctl⟩

theorem latch (c : EventClass) : State.KeepsSettling r s (s.latch c) := ⟨rfl, rfl, rfl, rfl, fun _ w hw => ⟨w, hw, .inl rfl⟩⟩

theorem countRoute (c : RouteCounter) (h : RouteCounter.epochsSettled.place ≠ c.place) :
    State.KeepsSettling r s (s.countRoute r c) :=
  ⟨rfl, rfl, rfl, State.counter_count_of_key_ne s (Counter.key_route_ne_of_place r h), fun _ w hw => ⟨w, hw, .inl rfl⟩⟩

theorem ite {p : Prop} [Decidable p] {a b : State} (ha : State.KeepsSettling r s a) (hb : State.KeepsSettling r s b) :
    State.KeepsSettling r s (if p then a else b) := by
  split
  · exact ha
  · exact hb

/-- A pass whose every turn keeps what a settlement reads. -/
theorem each {α : Type} (as : List α) (f : State → α → State) (hf : ∀ s a, State.KeepsSettling r s (f s a)) :
    State.KeepsSettling r s (s.each as f) :=
  State.each_keeps (State.KeepsSettling r s) as f (fun t a _ ht => ht.trans (hf t a)) s (refl r s)

/-- A change of records alone, each left in a slot that settles alike. -/
theorem ofRecords (hr : t.routes = s.routes) (hc : t.counters = s.counters)
    (h : ∀ n w, t.record? n = some w → ∃ z, s.record? n = some z ∧ settlesAlike (z.slotState r) (w.slotState r)) :
    State.KeepsSettling r s t := by
  have hroute := State.route_congr hr r
  exact ⟨by rw [hroute], by rw [hroute], by rw [hroute], State.counter_congr hc _, h⟩

theorem updRecord (n : Nat) (f : Record → Record) (hf : ∀ x, settlesAlike (x.slotState r) ((f x).slotState r)) :
    State.KeepsSettling r s (s.updRecord n f) := by
  refine ofRecords (State.updRecord_routes s n f) (State.updRecord_counters s n f) fun m w hw => ?_
  rw [State.record?_updRecord] at hw
  split at hw
  · obtain ⟨z, hz, rfl⟩ := Option.map_eq_some_iff.mp hw
    exact ⟨z, hz, hf z⟩
  · exact ⟨w, hw, .inl rfl⟩

/-- A record's freeing (R65). -/
theorem freeStep (n : Nat) : State.KeepsSettling r s (s.freeStep n) := by
  refine ofRecords (State.freeStep_routes s n) (State.freeStep_counters s n) fun m w hw => ?_
  rw [State.record?_freeStep] at hw
  split at hw
  · obtain ⟨z, hz, hzw⟩ := Option.bind_eq_some_iff.mp hw
    unfold Record.unlessFreeable at hzw
    split at hzw
    · cases hzw
    · exact ⟨z, hz, .inl (by rw [Option.some.inj hzw])⟩
  · exact ⟨w, hw, .inl rfl⟩

theorem loseRef (n : Nat) : State.KeepsSettling r s (s.loseRef n) := by
  unfold State.loseRef
  refine trans ?_ (freeStep n)
  exact updRecord n _ fun _ => .inl rfl

/-! ## The pacing unit's changes (R129, R132 to R136) -/

theorem setRegulator (g : Regulator) : State.KeepsSettling r s (s.setRegulator r g) := by
  unfold State.setRegulator
  refine ite (refl r s) ?_
  extract_lets s1
  have hpace : State.KeepsSettling r s s1 := (latch .rateLock).trans (updPace _)
  split
  · exact hpace.trans (updCtl _ fun _ => rfl)
  · exact hpace.trans (updCtl _ fun _ => rfl)
  · exact hpace

theorem decrease : State.KeepsSettling r s (s.decrease r) := by
  unfold State.decrease
  refine trans ?_ (setRegulator .track)
  refine trans ?_ (countRoute .rateDecreases (by decide))
  refine trans ?_ (updPace _)
  exact updRoute _ fun _ => ⟨rfl, rfl, rfl⟩

theorem lossEvent : State.KeepsSettling r s (s.lossEvent r) := by
  unfold State.lossEvent
  extract_lets s1 x
  have hcount : State.KeepsSettling r s s1 := countRoute .lossEvents (by decide)
  have hignored : State.KeepsSettling r s (s1.countRoute r .lossIgnored) := hcount.trans (countRoute .lossIgnored (by decide))
  exact ite hignored (ite (hcount.trans decrease) (hignored.trans (updRoute _ fun _ => ⟨rfl, rfl, rfl⟩)))

theorem increase : State.KeepsSettling r s (s.increase r) := by
  unfold State.increase
  extract_lets x rate s1
  have hrate : State.KeepsSettling r s s1 := trans (updPace _) (countRoute .rateIncreases (by decide))
  exact ite (hrate.trans (setRegulator .track)) hrate

theorem judgeIncrease (t : Word) : State.KeepsSettling r s (s.judgeIncrease r t) := by
  unfold State.judgeIncrease
  refine ite (refl r s) ?_
  extract_lets s1 p
  have hhold : State.KeepsSettling r s s1 := updPace _
  exact ite (hhold.trans increase) hhold

theorem takeSample (n : Nat) : State.KeepsSettling r s (s.takeSample r n) := by
  unfold State.takeSample State.countIf
  exact trans (ite (countRoute .samplesClamped (by decide)) (refl r s)) (updPace _)

/-! ## The resend timer and its expiry (R120, R121, R149) -/

theorem startTimer (t : Nat) : State.KeepsSettling r s (s.startTimer r t) := by
  unfold State.startTimer
  exact updTx _ fun _ => ⟨rfl, rfl⟩

theorem impair : State.KeepsSettling r s (s.impair r) := by
  unfold State.impair
  extract_lets s1
  have hroute : State.KeepsSettling r s s1 := updRoute _ fun _ => ⟨rfl, rfl, rfl⟩
  exact (hroute.trans (latch .routeImpaired)).trans (countRoute .impairedEntries (by decide))

theorem expire : State.KeepsSettling r s (s.expire r) := by
  unfold State.expire
  extract_lets s1 s2 s3
  have hlist : State.KeepsSettling r s s1 := by
    simp only [s1]
    split
    · exact refl r s
    · exact updTx _ fun _ => ⟨rfl, rfl⟩
  have hlost : State.KeepsSettling r s1 s2 := by
    refine trans ?_ lossEvent
    exact updTx _ fun _ => ⟨rfl, rfl⟩
  have hcount : State.KeepsSettling r s s3 := (hlist.trans hlost).trans (countRoute .resendTimeouts (by decide))
  exact ite (hcount.trans impair) (hcount.trans (startTimer _))

/-! ## The advance (R115) -/

/-- A covered span's slot passes from SENT to RECEIPTED at most (R61). -/
theorem receiptSlot (q : Word) (x : Record) :
    settlesAlike (x.slotState r) ((x.updSlot r fun sl =>
      if sl.state = .sent ∧ sl.closing = some q then { sl with state := .receipted } else sl).slotState r) := by
  rw [Record.slotState_updSlot _ _ _ (fun sl => by split <;> rfl), Record.slotState]
  cases x.slotOn r with
  | none => exact .inl rfl
  | some sl =>
    dsimp only [Option.map_some]
    split
    next h => exact .inr ⟨by rw [h.1]; rfl, rfl⟩
    next => exact .inl rfl

theorem coverSpan (d : Descriptor) : State.KeepsSettling r s (s.coverSpan r d) := by
  unfold State.coverSpan
  extract_lets s1 s2 s3
  have hwindow : State.KeepsSettling r s s1 := updTx _ fun _ => ⟨rfl, rfl⟩
  have hslots : State.KeepsSettling r s1 s2 := each _ _ fun _ n => updRecord n _ (receiptSlot d.seq)
  have hrefs : State.KeepsSettling r s2 s3 := each _ _ fun _ n => loseRef n
  obtain ⟨hqueue, hthrough, hmarker, hcounter, hrecord⟩ := (hwindow.trans hslots).trans hrefs
  exact ⟨hqueue, hthrough, hmarker, hcounter, hrecord⟩

end State.KeepsSettling

/-- An advance sets receipted-through, and keeps the rest of what a settlement reads. -/
theorem State.cumulative_keepsSettling (s : State) (r : RouteId) (t : Word) :
    ∃ u, State.KeepsSettling r s u ∧ State.KeepsSettling r (u.updTx r fun x => { x with through := t }) (s.cumulative r t) := by
  refine ⟨s.each (coveredBy (s.route r).tx.window t) fun s d => s.coverSpan r d, ?_, ?_⟩
  · exact State.KeepsSettling.each _ _ fun _ d => State.KeepsSettling.coverSpan d
  · unfold State.cumulative
    extract_lets ds s1 s2 s3
    have hsample : State.KeepsSettling r s1 s2 := by
      simp only [s2]
      split
      · exact State.KeepsSettling.refl r s1
      · exact (State.KeepsSettling.countRoute .rttSamples (by decide)).trans (State.KeepsSettling.takeSample _)
    have hrate : State.KeepsSettling r s2 s3 :=
      State.KeepsSettling.trans (State.KeepsSettling.judgeIncrease t) (State.KeepsSettling.updTx _ fun _ => ⟨rfl, rfl⟩)
    have hadvance := hsample.trans hrate
    split
    · exact hadvance.trans (State.KeepsSettling.updTx _ fun _ => ⟨rfl, rfl⟩)
    · extract_lets s4
      have htimer : State.KeepsSettling r s1 s4 := hadvance.trans (State.KeepsSettling.startTimer _)
      exact State.KeepsSettling.ite (htimer.trans State.KeepsSettling.expire) htimer

/-- What a receipt that advances the point and then settles reads at the settlement: the queue, the marker, the count, and the
records' slots as they were. -/
theorem State.cumulative_settling (s : State) (r : RouteId) (t : Word) :
    ((s.cumulative r t).route r).tx.settleQ = (s.route r).tx.settleQ ∧ ((s.cumulative r t).route r).tx.through = t ∧
      ((s.cumulative r t).route r).ctl.marker = (s.route r).ctl.marker ∧
      (s.cumulative r t).counter (.route r .epochsSettled) = s.counter (.route r .epochsSettled) ∧
      ∀ n w, (s.cumulative r t).record? n = some w → ∃ z, s.record? n = some z ∧ settlesAlike (z.slotState r) (w.slotState r) := by
  obtain ⟨u, hu, hv⟩ := State.cumulative_keepsSettling s r t
  have hroute := State.route_updTx_self u r fun x => { x with through := t }
  refine ⟨?_, ?_, ?_, hv.counter.trans hu.counter, fun n w hw => ?_⟩
  · rw [hv.settleQ, hroute, hu.settleQ]
  · rw [hv.through, hroute]
  · rw [hv.marker, hroute, hu.marker]
  · obtain ⟨y, hy, hyw⟩ := hv.record n w hw
    obtain ⟨z, hz, hzy⟩ := hu.record n y hy
    exact ⟨z, hz, hzy.trans hyw⟩

/-- A settlement gives slots that settle alike the same state. -/
theorem settlesAlike.settled {a b : Option SlotState} (h : settlesAlike a b) (faulted : Bool) :
    (if b = some .sent ∨ b = some .receipted then some (settledState faulted) else b) =
      if a = some .sent ∨ a = some .receipted then some (settledState faulted) else a := by
  have hiff (c : Option SlotState) : c.any SlotState.settleable = true ↔ c = some .sent ∨ c = some .receipted := by
    cases c with
    | none => simp
    | some v => simp [SlotState.settleable_iff]
  rcases h with rfl | ⟨ha, hb⟩
  · rfl
  · rw [if_pos ((hiff a).mp ha), if_pos ((hiff b).mp hb)]

end Sys2Proof.Machine
end

section
/-! SUPPORT. Two receipts taken in turn against the one that carries the gaps and the epoch of both (R113, R114, R117, R119): the
counters' numbers, what the gaps keep of what a receipt reads, the states alike but for the mask and the count of receipts, then the
obligation. -/

namespace Sys2Proof.Machine

/-! ## The numbers of the counters (11.6) -/

/-- The group code of a counter. -/
def Counter.group : Counter → Nat
  | .ingest _ => 0
  | .inbound _ => 1
  | .ports _ => 2
  | .management _ => 3
  | .route r _ => 16 + r.val

/-- The place of a counter in its group. -/
def Counter.place : Counter → Nat
  | .ingest c => c.place
  | .inbound c => c.place
  | .ports c => c.place
  | .management c => c.place
  | .route _ c => c.place

theorem Counter.key_eq (c : Counter) : c.key = 64 * c.group + c.place := by
  cases c <;> rfl

/-- A counter stands at its place in its group's list. -/
theorem countersOf_getElem?_place (c : Counter) : (countersOf c.group).bind (fun cs => cs[c.place]?) = some c := by
  cases c with
  | ingest c => cases c <;> rfl
  | inbound c => cases c <;> rfl
  | ports c => cases c <;> rfl
  | management c => cases c <;> rfl
  | route r c =>
    have hr := r.isLt
    have hroute : (⟨16 + r.val - 16, by omega⟩ : RouteId) = r := Fin.ext (by simp)
    change ((countersOf (16 + r.val)).bind fun cs => cs[c.place]?) = _
    unfold countersOf
    rw [if_neg (show 16 + r.val ≠ 0 by omega), if_neg (show 16 + r.val ≠ 1 by omega), if_neg (show 16 + r.val ≠ 2 by omega),
      if_neg (show 16 + r.val ≠ 3 by omega), dif_pos (show 16 ≤ 16 + r.val ∧ 16 + r.val < 24 by omega), hroute]
    cases c <;> rfl

theorem Counter.place_lt (c : Counter) : c.place < 64 := by
  cases c with
  | ingest c => exact c.place_lt
  | inbound c => cases c <;> decide
  | ports c => cases c <;> decide
  | management c => cases c <;> decide
  | route r c => exact c.place_lt

/-- Each counter is kept in a place of its own. -/
theorem Counter.key_injective {c d : Counter} (h : c.key = d.key) : c = d := by
  have hc := c.place_lt
  have hd := d.place_lt
  rw [Counter.key_eq, Counter.key_eq] at h
  have hgroup : c.group = d.group := by omega
  have hplace : c.place = d.place := by omega
  have hread := countersOf_getElem?_place c
  rw [hgroup, hplace, countersOf_getElem?_place d] at hread
  exact (Option.some.inj hread).symm

/-! ## What the gaps of a receipt keep (R117) -/

/-- From `s` to `t` what a receipt reads at route `r` is kept: settings, configurations, receipted-through, the window's sequences,
the outstanding marker, and that the route is neither CLOSED nor OPENING. -/
structure State.KeepsReceipt (r : RouteId) (s t : State) : Prop where
  settings : t.settings = s.settings
  cfg : ∀ q, (t.route q).cfg = (s.route q).cfg
  through : (t.route r).tx.through = (s.route r).tx.through
  seqs : (t.route r).tx.window.map (·.seq) = (s.route r).tx.window.map (·.seq)
  marker : (t.route r).ctl.marker = (s.route r).ctl.marker
  early : (t.route r).ctl.state = .closed ∨ (t.route r).ctl.state = .opening →
    (s.route r).ctl.state = .closed ∨ (s.route r).ctl.state = .opening

namespace State.KeepsReceipt

variable {r : RouteId} {s t u : State}

theorem refl (r : RouteId) (s : State) : State.KeepsReceipt r s s := ⟨rfl, fun _ => rfl, rfl, rfl, rfl, id⟩

theorem trans (h : State.KeepsReceipt r s t) (k : State.KeepsReceipt r t u) : State.KeepsReceipt r s u :=
  ⟨k.settings.trans h.settings, fun q => (k.cfg q).trans (h.cfg q), k.through.trans h.through, k.seqs.trans h.seqs,
    k.marker.trans h.marker, fun e => h.early (k.early e)⟩

theorem ite {p : Prop} [Decidable p] {a b : State} (ha : State.KeepsReceipt r s a) (hb : State.KeepsReceipt r s b) :
    State.KeepsReceipt r s (if p then a else b) := by
  split
  · exact ha
  · exact hb

theorem countRoute (c : RouteCounter) : State.KeepsReceipt r s (s.countRoute r c) := ⟨rfl, fun _ => rfl, rfl, rfl, rfl, id⟩

theorem latch (c : EventClass) : State.KeepsReceipt r s (s.latch c) := ⟨rfl, fun _ => rfl, rfl, rfl, rfl, id⟩

/-- A change of the route that keeps what a receipt reads there. -/
theorem updRoute (f : Route → Route) (hc : (f (s.route r)).cfg = (s.route r).cfg)
    (ht : (f (s.route r)).tx.through = (s.route r).tx.through ∧
      (f (s.route r)).tx.window.map (·.seq) = (s.route r).tx.window.map (·.seq))
    (hm : (f (s.route r)).ctl.marker = (s.route r).ctl.marker)
    (he : (f (s.route r)).ctl.state = .closed ∨ (f (s.route r)).ctl.state = .opening →
      (s.route r).ctl.state = .closed ∨ (s.route r).ctl.state = .opening) :
    State.KeepsReceipt r s (s.updRoute r f) := by
  rw [← State.route_updRoute_self s r f] at hc ht hm he
  refine ⟨rfl, fun q => ?_, ht.1, ht.2, hm, he⟩
  by_cases hq : q = r
  · rw [hq, hc]
  · rw [State.route_updRoute_of_ne s f hq]

theorem updPace (f : Pacing → Pacing) : State.KeepsReceipt r s (s.updPace r f) := updRoute _ rfl ⟨rfl, rfl⟩ rfl id

theorem setRegulator (g : Regulator) : State.KeepsReceipt r s (s.setRegulator r g) := by
  unfold State.setRegulator
  refine ite (refl r s) ?_
  extract_lets s1
  have hpace : State.KeepsReceipt r s s1 := (latch .rateLock).trans (updPace _)
  have hserves : State.KeepsReceipt r s1
      (s1.updCtl r fun c => { c with state := match g with | .acquire => .acquire | .track => .track }) := by
    refine updRoute _ rfl ⟨rfl, rfl⟩ rfl fun h => ?_
    cases g <;> simp at h
  split
  · exact hpace.trans hserves
  · exact hpace.trans hserves
  · exact hpace

theorem decrease : State.KeepsReceipt r s (s.decrease r) := by
  unfold State.decrease
  refine trans ?_ (setRegulator .track)
  refine trans ?_ (countRoute .rateDecreases)
  refine trans ?_ (updPace _)
  exact updRoute _ rfl ⟨rfl, rfl⟩ rfl id

theorem lossEvent : State.KeepsReceipt r s (s.lossEvent r) := by
  unfold State.lossEvent
  extract_lets s1 x
  have hcount : State.KeepsReceipt r s s1 := countRoute .lossEvents
  have hignored : State.KeepsReceipt r s (s1.countRoute r .lossIgnored) := hcount.trans (countRoute .lossIgnored)
  exact ite hignored (ite (hcount.trans decrease) (hignored.trans (updRoute _ rfl ⟨rfl, rfl⟩ rfl id)))

/-- A span listed for resend stays in the window under its sequence (R111). -/
theorem listed (now : Nat) (q : Word) : State.KeepsReceipt r s (s.updTx r fun t => t.list now q) := by
  refine updRoute _ rfl ⟨rfl, ?_⟩ rfl id
  change (((s.route r).tx.window.map _).map _) = _
  rw [List.map_map]
  refine List.map_congr_left fun d _ => ?_
  dsimp only [Function.comp]
  split <;> rfl

theorem takeGap (g : Word) : State.KeepsReceipt r s (s.takeGap r g) := by
  unfold State.takeGap
  split
  · exact refl r s
  next d _ =>
    refine ite (refl r s) (ite (refl r s) ?_)
    extract_lets s1
    have hlist : State.KeepsReceipt r s s1 := (listed s.now g).trans (countRoute .gapRequests)
    exact ite hlist (hlist.trans lossEvent)

theorem takeGaps (gs : List Word) : State.KeepsReceipt r s (s.each gs fun s g => s.takeGap r g) :=
  State.each_keeps (State.KeepsReceipt r s) gs _ (fun _ g _ ht => ht.trans (takeGap g)) s (refl r s)

end State.KeepsReceipt

/-- The route of a region is read from the configurations alone. -/
theorem State.routeOfRegion_congr {s t : State} (h : ∀ q, (t.route q).cfg = (s.route q).cfg) (n : Nat) :
    t.routeOfRegion n = s.routeOfRegion n := by
  unfold State.routeOfRegion
  simp only [h]

theorem State.takesKind_congr {s t : State} (h : t.settings = s.settings) (p : Port) (k : Byte) (f : Frame) :
    t.takesKind p k f = s.takesKind p k f := by
  cases p <;> simp only [State.takesKind, State.takes, State.station, h]

/-! ## States alike but for the mask and the count of receipts -/

/-- The state with another mask and other counters. -/
def State.remade (b : State) (mask : BitVec 13) (counters : Table Nat) : State := { b with mask := mask, counters := counters }

/-- The states agree but for their masks `ma` and `mb`, and in every counter but that of the receipts taken at route `r`, which is `n`
in the first. -/
structure State.AlikeTaken (r : RouteId) (ma mb : BitVec 13) (n : Nat) (a b : State) : Prop where
  same : a = b.remade ma a.counters
  mask : b.mask = mb
  counter : ∀ c : Counter, c.key ≠ (Counter.route r .receiptsTaken).key → a.counter c = b.counter c
  taken : a.counter (.route r .receiptsTaken) = n

/-- An operation that neither reads nor changes the mask and the counters. -/
def State.Blind (g : State → State) : Prop := ∀ b m cs, g (b.remade m cs) = (g b).remade m cs

namespace State.AlikeTaken

variable {r : RouteId} {ma mb : BitVec 13} {n : Nat} {a b : State}

theorem blind {g : State → State} (hg : State.Blind g) (h : State.AlikeTaken r ma mb n a b) : State.AlikeTaken r ma mb n (g a) (g b) := by
  have hb : g b = (g b).remade b.mask b.counters := hg b b.mask b.counters
  have ha : g a = (g b).remade ma a.counters := by
    conv_lhs => rw [h.same]
    exact hg b ma a.counters
  have hca : (g a).counters = a.counters := by rw [ha]; rfl
  have hcb : (g b).counters = b.counters := by rw [hb]; rfl
  refine ⟨by rw [hca]; exact ha, ?_, fun c hc => ?_, (State.counter_congr hca _).trans h.taken⟩
  · rw [hb]
    exact h.mask
  · rw [State.counter_congr hca, State.counter_congr hcb, h.counter c hc]

theorem count (h : State.AlikeTaken r ma mb n a b) {c : Counter} (hc : c.key ≠ (Counter.route r .receiptsTaken).key) :
    State.AlikeTaken r ma mb n (a.count c) (b.count c) := by
  refine ⟨?_, h.mask, fun d hd => ?_, (State.counter_count_of_key_ne a hc.symm).trans h.taken⟩
  · conv_lhs => rw [h.same]
    rw [h.same]
    rfl
  · rw [State.count, State.count, State.counter_countBy, State.counter_countBy, h.counter c hc, h.counter d hd]

theorem countRoute (h : State.AlikeTaken r ma mb n a b) (c : RouteCounter) (hc : c.place ≠ RouteCounter.receiptsTaken.place) :
    State.AlikeTaken r ma mb n (a.countRoute r c) (b.countRoute r c) :=
  h.count (Counter.key_route_ne_of_place r hc)

theorem countIngest (h : State.AlikeTaken r ma mb n a b) (c : IngestCounter) :
    State.AlikeTaken r ma mb n (a.count (.ingest c)) (b.count (.ingest c)) :=
  h.count ((Counter.route_apartFromRecords r _).1 c).symm

theorem ite {p : Prop} [Decidable p] {a' b' : State} (h : State.AlikeTaken r ma mb n a b) (h' : State.AlikeTaken r ma mb n a' b') :
    State.AlikeTaken r ma mb n (if p then a else a') (if p then b else b') := by
  split
  · exact h
  · exact h'

theorem each {α : Type} (as : List α) (f : State → α → State)
    (hf : ∀ a b x, State.AlikeTaken r ma mb n a b → State.AlikeTaken r ma mb n (f a x) (f b x))
    (h : State.AlikeTaken r ma mb n a b) : State.AlikeTaken r ma mb n (a.each as f) (b.each as f) := by
  induction as generalizing a b with
  | nil => exact h
  | cons x as ih => exact ih (hf a b x h)

theorem record? (h : State.AlikeTaken r ma mb n a b) (m : Nat) : a.record? m = b.record? m := by rw [h.same]; rfl

theorem route (h : State.AlikeTaken r ma mb n a b) (q : RouteId) : a.route q = b.route q := by rw [h.same]; rfl

theorem now (h : State.AlikeTaken r ma mb n a b) : a.now = b.now := by rw [h.same]; rfl

theorem clusterUp (h : State.AlikeTaken r ma mb n a b) : a.clusterUp = b.clusterUp := by rw [h.same]; rfl

theorem outQ (h : State.AlikeTaken r ma mb n a b) : a.outQ = b.outQ := by rw [h.same]; rfl

theorem updRoute (h : State.AlikeTaken r ma mb n a b) (q : RouteId) (f : Route → Route) :
    State.AlikeTaken r ma mb n (a.updRoute q f) (b.updRoute q f) := h.blind (g := fun s => s.updRoute q f) fun _ _ _ => rfl

theorem latch (h : State.AlikeTaken r ma mb n a b) (c : EventClass) : State.AlikeTaken r ma mb n (a.latch c) (b.latch c) :=
  h.blind (g := fun s => s.latch c) fun _ _ _ => rfl

theorem setRecord (h : State.AlikeTaken r ma mb n a b) (m : Nat) (x : Record) :
    State.AlikeTaken r ma mb n (a.setRecord m x) (b.setRecord m x) := h.blind (g := fun s => s.setRecord m x) fun _ _ _ => rfl

/-! ### The record manager's operations -/

theorem endSlot (h : State.AlikeTaken r ma mb n a b) (m : Nat) (q : RouteId) (st : SlotState) :
    State.AlikeTaken r ma mb n (a.endSlot m q st) (b.endSlot m q st) := by
  unfold State.endSlot
  rw [h.record? m]
  split
  · exact h
  · split
    · exact h
    · refine ite h ?_
      extract_lets y z
      unfold State.countSlot
      split
      · exact (h.setRecord m z).countIngest _
      · exact h.setRecord m z

theorem placeOut (h : State.AlikeTaken r ma mb n a b) (d : Addr) (p : List Byte) :
    State.AlikeTaken r ma mb n (a.placeOut d p) (b.placeOut d p) := by
  unfold State.placeOut
  rw [h.outQ]
  refine ite ?_ (h.count (Counter.route_apartFromRecords r _).2.symm)
  have hplaced : State.AlikeTaken r ma mb n { a with outQ := a.outQ ++ [{ dst := d, payload := p }] }
      { b with outQ := b.outQ ++ [{ dst := d, payload := p }] } :=
    h.blind (g := fun s => { s with outQ := s.outQ ++ [{ dst := d, payload := p }] }) fun _ _ _ => rfl
  rwa [h.outQ] at hplaced

theorem recordCheck (h : State.AlikeTaken r ma mb n a b) (m : Nat) :
    State.AlikeTaken r ma mb n (a.recordCheck m) (b.recordCheck m) := by
  have hnotice : State.AlikeTaken r ma mb n (a.noticeStep m) (b.noticeStep m) := by
    unfold State.noticeStep
    rw [h.record? m, h.clusterUp]
    split
    · exact h
    · split
      · exact h
      · exact ite (((h.setRecord m _).placeOut _ _).countIngest _) h
  have hdrain : State.Blind fun s => s.drainStep m := by
    intro s mask cs
    have hsame : (s.remade mask cs).record? m = s.record? m := rfl
    dsimp only [State.drainStep]
    rw [hsame]
    cases s.record? m with
    | none => rfl
    | some x =>
      dsimp only
      split <;> rfl
  have hfree : State.Blind fun s => s.freeStep m := by
    intro s mask cs
    have hsame : (s.remade mask cs).record? m = s.record? m := rfl
    dsimp only [State.freeStep]
    rw [hsame]
    cases s.record? m with
    | none => rfl
    | some x =>
      dsimp only
      split <;> rfl
  exact (hnotice.blind hdrain).blind hfree

/-! ### A settled epoch (R119) -/

theorem settleSlot (h : State.AlikeTaken r ma mb n a b) (q : RouteId) (faulted : Bool) (m : Nat) :
    State.AlikeTaken r ma mb n (a.settleSlot q faulted m) (b.settleSlot q faulted m) := by
  rw [State.settleSlot_cases, State.settleSlot_cases, h.record? m]
  exact ite (h.endSlot m q _) h

theorem settleEpoch (h : State.AlikeTaken r ma mb n a b) (m epoch : Word) (faulted : Bool) :
    State.AlikeTaken r ma mb n (a.settleEpoch r m epoch faulted) (b.settleEpoch r m epoch faulted) := by
  have hnames : a.settledRecords r m = b.settledRecords r m := by rw [State.settledRecords, State.settledRecords, h.route]
  have hdrop : State.AlikeTaken r ma mb n (a.dropSettled r m) (b.dropSettled r m) := by
    unfold State.dropSettled
    rw [h.route r]
    exact h.updRoute r _
  have hslots : State.AlikeTaken r ma mb n ((a.dropSettled r m).settleSlots r faulted (b.settledRecords r m))
      ((b.dropSettled r m).settleSlots r faulted (b.settledRecords r m)) :=
    each _ _ (fun _ _ k hk => hk.settleSlot r faulted k) hdrop
  have hrecorded : State.AlikeTaken r ma mb n
      (((a.dropSettled r m).settleSlots r faulted (b.settledRecords r m)).recordSettled r epoch faulted)
      (((b.dropSettled r m).settleSlots r faulted (b.settledRecords r m)).recordSettled r epoch faulted) := by
    unfold State.recordSettled
    extract_lets s3 s4 t3 t4
    have hcounted : State.AlikeTaken r ma mb n s4 t4 := countRoute (hslots.updRoute r _) .epochsSettled (by decide)
    exact ite ((hcounted.countRoute .epochsFaulted (by decide)).latch .epochFault) hcounted
  rw [State.settleEpoch_eq, State.settleEpoch_eq, hnames]
  exact each _ _ (fun _ _ k hk => hk.recordCheck k) hrecorded

theorem takeEpoch (h : State.AlikeTaken r ma mb n a b) (epoch : Word) (faulted : Bool) :
    State.AlikeTaken r ma mb n (a.takeEpoch r epoch faulted) (b.takeEpoch r epoch faulted) := by
  unfold State.takeEpoch
  rw [h.route r]
  split
  · exact h
  · split
    · exact h
    · exact ite (h.settleEpoch _ epoch faulted) h

/-! ### The gaps (R117, R132) -/

theorem setRegulator (h : State.AlikeTaken r ma mb n a b) (g : Regulator) :
    State.AlikeTaken r ma mb n (a.setRegulator r g) (b.setRegulator r g) := by
  unfold State.setRegulator
  rw [h.route r]
  refine ite h ?_
  extract_lets s1 t1
  have hpace : State.AlikeTaken r ma mb n s1 t1 := (h.latch .rateLock).updRoute r _
  split
  · exact hpace.updRoute r _
  · exact hpace.updRoute r _
  · exact hpace

theorem decrease (h : State.AlikeTaken r ma mb n a b) : State.AlikeTaken r ma mb n (a.decrease r) (b.decrease r) := by
  unfold State.decrease
  rw [h.now]
  refine setRegulator (countRoute ?_ .rateDecreases (by decide)) .track
  exact (h.updRoute r _).updRoute r _

theorem lossEvent (h : State.AlikeTaken r ma mb n a b) : State.AlikeTaken r ma mb n (a.lossEvent r) (b.lossEvent r) := by
  unfold State.lossEvent
  rw [h.route r, h.now]
  extract_lets s1 x t1
  have hcount : State.AlikeTaken r ma mb n s1 t1 := h.countRoute .lossEvents (by decide)
  have hignored := hcount.countRoute .lossIgnored (by decide)
  exact ite hignored (ite hcount.decrease (hignored.updRoute r _))

theorem takeGap (h : State.AlikeTaken r ma mb n a b) (g : Word) : State.AlikeTaken r ma mb n (a.takeGap r g) (b.takeGap r g) := by
  unfold State.takeGap
  rw [h.route r, h.now]
  split
  · exact h
  · refine ite h (ite h ?_)
    extract_lets s1 t1
    have hlist : State.AlikeTaken r ma mb n s1 t1 := countRoute (h.updRoute r _) .gapRequests (by decide)
    exact ite hlist hlist.lossEvent

theorem takeGaps (h : State.AlikeTaken r ma mb n a b) (gs : List Word) :
    State.AlikeTaken r ma mb n (a.each gs fun s g => s.takeGap r g) (b.each gs fun s g => s.takeGap r g) :=
  each gs _ (fun _ _ g hk => hk.takeGap g) h

/-- The second state counts a receipt more. -/
theorem countTaken (h : State.AlikeTaken r ma mb n a b) : State.AlikeTaken r ma mb n a (b.countRoute r .receiptsTaken) :=
  ⟨h.same, h.mask, fun c hc => (h.counter c hc).trans (State.counter_count_of_key_ne b hc).symm, h.taken⟩

end State.AlikeTaken

/-! ## The two receipts -/

/-- With every class masked an event sends no alert (R189). -/
theorem State.alertFrom_of_mask_zero {s t : State} (h : t.mask = 0) : s.alertFrom t = t := by
  unfold State.alertFrom
  rw [if_pos]
  rw [h]
  exact BitVec.and_zero

/-- A receipt behind the window that lists gaps acts as its gaps with an epoch that settles nothing, and then as its epoch alone. -/
theorem State.takenInTurn_of_behind {s : State} {f g h : Frame} {x : ReceiptFrame} {e : Word} {r : RouteId}
    (htf : s.takesKind .longhaul 0x22 f = true) (htg : s.takesKind .longhaul 0x22 g = true)
    (hth : s.takesKind .longhaul 0x22 h = true) (hf : readReceipt f.payload = some x)
    (hg : readReceipt g.payload = some { x with epoch := e }) (hh : readReceipt h.payload = some { x with gaps := [] })
    (hr : s.routeOfRegion x.src = some r) (hd : x.dst = s.settings.localRegion.toNat) (hc : (s.route r).ctl.state ≠ .closed)
    (ho : (s.route r).ctl.state ≠ .opening) (hw : ∀ d ∈ (s.route r).tx.window, d.seq ≠ x.through)
    (hb : (s.route r).tx.behind x.through) (hm : ∀ m, (s.route r).ctl.marker = some m → m.epoch ≠ e) : s.takenInTurn f g h r := by
  obtain ⟨a, ha⟩ : ∃ a, a = (s.countRoute r .receiptsTaken).each x.gaps fun s g => s.takeGap r g := ⟨_, rfl⟩
  obtain ⟨u, hu⟩ : ∃ u, u = (State.countRoute { s with mask := 0 } r .receiptsTaken).each x.gaps fun s g => s.takeGap r g := ⟨_, rfl⟩
  have hstart : State.AlikeTaken r s.mask 0 ((s.countRoute r .receiptsTaken).counter (.route r .receiptsTaken))
      (s.countRoute r .receiptsTaken) (State.countRoute { s with mask := 0 } r .receiptsTaken) :=
    ⟨rfl, rfl, fun _ _ => rfl, rfl⟩
  have hgaps := hstart.takeGaps x.gaps
  rw [← ha, ← hu] at hgaps
  have hkept : State.KeepsReceipt r s u := by
    rw [hu]
    exact State.KeepsReceipt.trans (t := State.countRoute { s with mask := 0 } r .receiptsTaken)
      ⟨rfl, fun _ => rfl, rfl, rfl, rfl, id⟩ (State.KeepsReceipt.takeGaps x.gaps)
  have hwindow : ∀ d ∈ (u.route r).tx.window, d.seq ≠ x.through := by
    intro d hmem hseq
    have hmem : x.through ∈ (u.route r).tx.window.map (·.seq) := List.mem_map.mpr ⟨d, hmem, hseq⟩
    rw [hkept.seqs] at hmem
    obtain ⟨d, hmem, hseq⟩ := List.mem_map.mp hmem
    exact hw d hmem hseq
  have hbehind : (u.route r).tx.behind x.through := by
    unfold Transmit.behind
    rw [hkept.through]
    exact hb
  have hfirst : exec (.receipt g) { s with mask := 0 } = .next u := by
    rw [exec_receipt_of_read (s := { s with mask := 0 }) htg hg hr hd hc ho,
      State.takeReceipt_of_behind (s := { s with mask := 0 }) (x := { x with epoch := e }) hw hb]
    dsimp only
    rw [← hu, State.takeEpoch_of_other (by rw [hkept.marker]; exact hm), State.alertFrom_of_mask_zero hgaps.mask]
  obtain ⟨v, hv⟩ : ∃ v, v = (u.countRoute r .receiptsTaken).takeEpoch r x.epoch x.faulted := ⟨_, rfl⟩
  obtain ⟨w, hw'⟩ : ∃ w, w = a.takeEpoch r x.epoch x.faulted := ⟨_, rfl⟩
  have halike := hgaps.countTaken.takeEpoch x.epoch x.faulted
  rw [← hv, ← hw'] at halike
  have hearly : (u.route r).ctl.state ≠ .closed ∧ (u.route r).ctl.state ≠ .opening :=
    not_or.mp fun hbad => (hkept.early hbad).elim hc ho
  have hsecond : exec (.receipt h) u = .next v := by
    rw [exec_receipt_of_read (x := { x with gaps := [] }) (r := r) (by rw [State.takesKind_congr hkept.settings]; exact hth) hh
      (by rw [State.routeOfRegion_congr hkept.cfg]; exact hr) (by rw [hkept.settings]; exact hd) hearly.1 hearly.2,
      State.takeReceipt_of_behind (x := { x with gaps := [] }) hwindow hbehind]
    change Host.Outcome.next (u.alertFrom ((u.countRoute r .receiptsTaken).takeEpoch r x.epoch x.faulted)) = _
    rw [← hv, State.alertFrom_of_mask_zero halike.mask]
  have hwhole : exec (.receipt f) s = .next (s.alertFrom w) := by
    rw [exec_receipt_of_read htf hf hr hd hc ho, State.takeReceipt_of_behind hw hb, hw', ha]
  refine ⟨s.alertFrom w, u, v, hfirst, hsecond, hwhole, ?_, fun hle => ?_, fun c hc ha hd => ?_⟩
  · have hqueue : (s.alertFrom w).outQ = alertedOut s (s.alertFrom w) v.outQ := by
      rw [State.alertFrom_outQ, halike.outQ, State.alertFrom_frame]
      rfl
    rw [← hqueue]
    calc s.alertFrom w = { w with outQ := (s.alertFrom w).outQ, counters := (s.alertFrom w).counters } := State.alertFrom_frame s w
      _ = { v.remade s.mask w.counters with outQ := (s.alertFrom w).outQ, counters := (s.alertFrom w).counters } := by
        rw [← halike.same]
  · rw [State.counter_alertFrom_route, halike.taken]
    exact State.counter_count_self s _
  · rw [State.counter_alertFrom_of_key_ne _ _ (fun e => ha (Counter.key_injective e)) (fun e => hd (Counter.key_injective e))]
    exact halike.counter c fun e => hc (Counter.key_injective e)

/-- Settles O29: the marker's epoch settles the entries ahead of it; an advance keeps what the settlement reads, and gaps act as in a
receipt of their own. -/
theorem epochSettlesSlots : Obligations.EpochSettlesSlots := by
  refine ⟨?_, ?_, ?_⟩
  · intro s f x r m q y es ht hx hr hd hc ho _ hw hg hm hq he
    obtain ⟨s1, hs1⟩ : ∃ s1, s1 = (s.countRoute r .receiptsTaken).cumulative r x.through := ⟨_, rfl⟩
    obtain ⟨hqueue, hthrough, hmarker, hcounter, hrecords⟩ := State.cumulative_settling (s.countRoute r .receiptsTaken) r x.through
    rw [← hs1] at hqueue hthrough hmarker hcounter hrecords
    obtain ⟨u, hu⟩ : ∃ u, u = s1.settleEpoch r q x.epoch x.faulted := ⟨_, rfl⟩
    have hsettles := State.takeEpoch_of_marker (s := s1) (r := r) (hmarker.trans hm) hq x.faulted
    rw [he, ← hu] at hsettles
    have hexec : exec (.receipt f) s = .next (s.alertFrom u) := by
      rw [exec_receipt_of_read ht hx hr hd hc ho, State.takeReceipt_of_window hw, hg, ← hs1, ← hsettles]
      rfl
    have hroute : (s.alertFrom u).route r = u.route r := State.route_congr (State.alertFrom_routes s u) r
    have hafter := State.route_settleEpoch_self s1 r q x.epoch x.faulted
    rw [← hu] at hafter
    refine ⟨_, hexec, ?_, ?_, ?_, ?_, ?_, fun hle => ?_, fun e hmem z hz _ w hw => ?_⟩
    · rw [hroute, hafter]
      exact hthrough
    · rw [hroute, hafter, hqueue]
      rfl
    · rw [hroute, hafter]
    · rw [hroute, hafter]
    · rw [hroute, hafter]
    · have hbefore : s1.counter (.route r .epochsSettled) = s.counter (.route r .epochsSettled) :=
        hcounter.trans (State.counter_count_of_key_ne s (Counter.key_route_ne_of_place r (by decide)))
      rw [State.counter_alertFrom_route, hu, ← hbefore]
      exact (State.settleEpoch_counted s1 r q x.epoch x.faulted).1 (by rwa [hbefore])
    · rw [State.record?_congr (State.alertFrom_records s u), hu] at hw
      have hnamed : e.record ∈ s1.settledRecords r q := by
        rw [State.settledRecords, hqueue]
        exact List.mem_map_of_mem hmem
      have hstands := hw
      rw [State.record?_settleEpoch, if_pos hnamed] at hstands
      obtain ⟨z1, hz1, _⟩ := Option.bind_eq_some_iff.mp hstands
      obtain ⟨z', hz', halike⟩ := hrecords _ z1 hz1
      have hsame : z' = z := Option.some.inj (hz'.symm.trans hz)
      rw [hsame] at halike
      rw [State.slotState_settleEpoch hnamed hz1 hw, halike.settled]
      rfl
  · intro s f g h x e r y htf htg hth hf hg hh hr hd hc ho hw hb hm
    exact State.takenInTurn_of_behind htf htg hth hf hg hh hr hd hc ho hw hb hm
  · intro s f x r m q y es ht hx hr hd hc ho hw hb hg hm hq he
    obtain ⟨s1, hs1⟩ : ∃ s1, s1 = s.countRoute r .receiptsTaken := ⟨_, rfl⟩
    obtain ⟨u, hu⟩ : ∃ u, u = s1.settleEpoch r q x.epoch x.faulted := ⟨_, rfl⟩
    have hexec := State.receipt_settles s f x r m q ht hx hr hd hc ho hw hb hg hm hq he
    rw [← hs1, ← hu] at hexec
    have hrecord (n : Nat) : (s.alertFrom u).record? n = u.record? n := State.record?_congr (State.alertFrom_records s u) n
    have hroute (p : RouteId) : (s.alertFrom u).route p = u.route p := State.route_congr (State.alertFrom_routes s u) p
    have hs1_route (p : RouteId) : s1.route p = s.route p := by rw [hs1, State.route_countRoute]
    have hs1_record (n : Nat) : s1.record? n = s.record? n := by rw [hs1, State.record?_countRoute]
    have hnamed (e : SettleEntry) (hmem : e ∈ es) : e.record ∈ s1.settledRecords r q := by
      rw [State.settledRecords, hs1_route]
      exact List.mem_map_of_mem hmem
    refine ⟨_, hexec, ?_, fun p hp => ?_, ?_, fun e hmem z hz _ w hw => ?_, fun n hn => ?_, ?_, ?_, ?_⟩
    · rw [State.alertFrom_frame, hu, State.settleEpoch_frame, hs1]
      rfl
    · rw [hroute, hu, State.route_settleEpoch_of_ne _ _ _ _ _ hp, hs1_route]
    · rw [hroute, hu, State.route_settleEpoch_self, hs1_route]
      rfl
    · rw [hrecord, hu] at hw
      exact State.slotState_settleEpoch (hnamed e hmem) (by rw [hs1_record, hz]) hw
    · rw [hrecord, hu, State.record?_settleEpoch, if_neg, hs1_record]
      rw [State.settledRecords, hs1_route]
      rintro hmem
      obtain ⟨e, he, rfl⟩ := List.mem_map.mp hmem
      exact hn e he rfl
    · intro hle
      rw [State.counter_alertFrom_route, hu, hs1]
      exact (State.counted_settleEpoch_of_taken s r q x.epoch x.faulted).1 hle
    · intro hle
      rw [State.counter_alertFrom_route, hu, hs1]
      exact (State.counted_settleEpoch_of_taken s r q x.epoch x.faulted).2 hle
    · intro e hmem z sl hz hnodup hsl hreq hst hopen settled waiting hshort hreach o slots sends
      have hst := (SlotState.settleable_iff _).mpr hst
      have hout : (z.settled r x.faulted).outcome = o := Record.outcome_settled x.faulted hnodup hsl hreq hst hopen hshort hreach
      have hslots : (z.settled r x.faulted).slots = slots := Record.slots_settled x.faulted hnodup hsl hst
      have heq := Record.settled_eq z r x.faulted
      rw [hout, hslots] at heq
      have hup : s1.clusterUp = s.clusterUp := by rw [hs1]; rfl
      refine ⟨fun w hw => ?_, fun hsends hroom v hv => ?_⟩
      · rw [hrecord, hu, State.record?_settleEpoch, if_pos (hnamed e hmem), hs1_record, hz, Option.bind_some, heq, hup] at hw
        exact Record.checked_fields hw
      · obtain ⟨_, hlive, howed, hlink⟩ := hsends
        have hgrows : u.outQ <+: (s.alertFrom u).outQ := by
          rw [State.alertFrom_outQ]
          exact isPrefix_alertedOut s u u.outQ
        refine hgrows.subset ?_
        rw [hu, ← hslots]
        refine State.settled_notice_mem_outQ (hnamed e hmem) (by rw [hs1_record, hz]) (hout.trans hv) hlive howed
          (hup.trans hlink) ?_
        rw [← hu]
        exact lt_of_le_of_lt hgrows.length_le hroom

end Sys2Proof.Machine
end

section
/-! SUPPORT. What ends a route's work (R63, R77, R81, R99, R123, R158): the slots ABANDONED together with the notices due, the records
that become free and their extents, the queues, buffers and window discarded, and the inbound reset. -/

namespace Sys2Proof.Machine

/-! ## Rising tables -/

section

variable {α : Type} {t : Table α}

theorem Table.mem_of_find {k : Nat} {v : α} (h : Table.find t k = some v) : (k, v) ∈ t := by
  induction t with
  | nil => cases h
  | cons e t ih =>
    obtain ⟨k', v'⟩ := e
    by_cases hk : k' = k
    · subst hk
      rw [Table.find, if_pos rfl, Option.some.injEq] at h
      rw [h]
      exact List.mem_cons_self
    · rw [Table.find, if_neg hk] at h
      exact List.mem_cons_of_mem _ (ih h)

/-- A rising table lists each number once. -/
theorem Table.nodup_keys (h : Table.rising t = true) : (t.map (·.1)).Nodup :=
  ((Table.rising_iff t).mp h).imp fun hlt => Nat.ne_of_lt hlt

/-- A rising table reads as it lists. -/
theorem Table.find_of_mem (h : Table.rising t = true) {e : Nat × α} (he : e ∈ t) : Table.find t e.1 = some e.2 := by
  have hd := Table.nodup_keys h
  clear h
  induction t with
  | nil => cases he
  | cons e' t ih =>
    obtain ⟨k', v'⟩ := e'
    rw [List.map_cons, List.nodup_cons] at hd
    rcases List.mem_cons.mp he with rfl | he
    · exact if_pos rfl
    · have hne : k' ≠ e.1 := fun hk => hd.1 (List.mem_map.mpr ⟨e, he, hk.symm⟩)
      rw [Table.find, if_neg hne]
      exact ih he hd.2

/-- A table with its values changed, each at its own number. -/
theorem Table.find_mapValues (f : Nat × α → α) (k : Nat) :
    Table.find (t.map fun e => (e.1, f e)) k = (Table.find t k).map fun v => f (k, v) := by
  induction t with
  | nil => rfl
  | cons e t ih =>
    obtain ⟨k', v'⟩ := e
    rw [List.map_cons, Table.find, Table.find]
    by_cases hk : k' = k
    · rw [if_pos hk, if_pos hk, hk]
      rfl
    · rw [if_neg hk, if_neg hk, ih]

theorem Table.rising_mapValues (h : Table.rising t = true) (f : Nat × α → α) :
    Table.rising (t.map fun e => (e.1, f e) : Table α) = true := by
  rw [Table.rising_iff] at h ⊢
  rwa [List.map_map]

/-- A write at a number that a rising table lists changes that entry's value alone. -/
theorem Table.insert_of_find (h : Table.rising t = true) {k : Nat} {v w : α} (hv : Table.find t k = some v) :
    Table.insert t k w = t.map fun e => (e.1, if e.1 = k then w else e.2) := by
  rw [Table.rising_iff] at h
  induction t with
  | nil => cases hv
  | cons e t ih =>
    obtain ⟨k', v'⟩ := e
    rw [List.map_cons, List.pairwise_cons] at h
    obtain ⟨hlt, hrest⟩ := h
    by_cases hk : k' = k
    · subst hk
      have hkeep : (t.map fun e => (e.1, if e.1 = k' then w else e.2)) = t := by
        refine (List.map_congr_left fun e he => ?_).trans (List.map_id' t)
        have hne : e.1 ≠ k' := (Nat.ne_of_lt (hlt e.1 (List.mem_map_of_mem he))).symm
        rw [if_neg hne]
      rw [List.map_cons, hkeep]
      simp [Table.insert]
    · rw [Table.find, if_neg hk] at hv
      have hbefore : ¬ k < k' := by
        have := hlt k (List.mem_map_of_mem (Table.mem_of_find hv))
        omega
      rw [Table.insert, if_neg hbefore, if_neg hk, ih hrest hv, List.map_cons, if_neg hk]

/-- The entries of a rising table that meet `P`, or stand at number `n`, are those that meet `P` and the one at `n`. -/
theorem Table.filter_or_perm (h : Table.rising t = true) {n : Nat} {v : α} (hv : Table.find t n = some v) (P : Nat → Bool)
    (hn : P n = false) :
    (t.filter fun e => P e.1 || e.1 == n).Perm ((t.filter fun e => P e.1) ++ [(n, v)]) := by
  have hd : t.Nodup := List.Nodup.of_map _ (Table.nodup_keys h)
  have hnew : (n, v) ∉ t.filter fun e => P e.1 := by
    rw [List.mem_filter]
    rintro ⟨_, hP⟩
    rw [hn] at hP
    cases hP
  have hright : ((t.filter fun e => P e.1) ++ [(n, v)]).Nodup := by
    rw [List.nodup_append]
    refine ⟨hd.filter _, List.nodup_singleton _, fun a ha b hb => ?_⟩
    rw [List.mem_singleton] at hb
    rintro rfl
    exact hnew (hb ▸ ha)
  refine (List.perm_ext_iff_of_nodup (hd.filter _) hright).mpr fun e => ?_
  rw [List.mem_append, List.mem_filter, List.mem_filter, List.mem_singleton, Bool.or_eq_true, beq_iff_eq]
  constructor
  · rintro ⟨he, hP | hk⟩
    · exact .inl ⟨he, hP⟩
    · have hfind := Table.find_of_mem h he
      rw [hk, hv] at hfind
      exact .inr (Prod.ext hk (Option.some.inj hfind).symm)
  · rintro (⟨he, hP⟩ | rfl)
    · exact ⟨he, .inl hP⟩
    · exact ⟨Table.mem_of_find hv, .inr rfl⟩

end

/-! ## Records freed and their extents (R65, R77) -/

/-- From `s` to `t` records were at most freed or changed in place, their extents kept, and the extents of those freed stand at the
tail of the free list. -/
structure State.Released (s t : State) : Prop where
  kept : ∀ n y, t.record? n = some y → ∃ x, s.record? n = some x ∧ x.extents = y.extents
  pool : Table.rising s.records = true → ∃ xs, t.pool.toList = s.pool.toList ++ xs ∧
    xs.Perm ((s.records.filter fun e => (t.record? e.1).isNone).flatMap (·.2.extents))

namespace State.Released

variable {s t u : State}

theorem refl (s : State) : s.Released s := by
  refine ⟨fun n y hy => ⟨y, hy, rfl⟩, fun hs => ⟨[], (List.append_nil _).symm, ?_⟩⟩
  rw [List.filter_eq_nil_iff.mpr]
  · exact List.Perm.nil
  · intro e he
    rw [State.record?, Table.find_of_mem hs he]
    simp

/-- A change of records in place that keeps their extents. -/
theorem inPlace (h : s.Released t) (hp : u.pool = t.pool) (hn : ∀ n, u.record? n = none → t.record? n = none)
    (hk : ∀ n y, u.record? n = some y → ∃ x, t.record? n = some x ∧ x.extents = y.extents) : s.Released u := by
  refine ⟨fun n y hy => ?_, fun hs => ?_⟩
  · obtain ⟨x, hx, hxy⟩ := hk n y hy
    obtain ⟨z, hz, hzx⟩ := h.kept n x hx
    exact ⟨z, hz, hzx.trans hxy⟩
  · have hsame (n : Nat) : (u.record? n).isNone = (t.record? n).isNone := by
      cases hu : u.record? n with
      | none => rw [hn n hu]
      | some y =>
        obtain ⟨x, hx, _⟩ := hk n y hu
        rw [hx]
        rfl
    simp only [hsame, hp]
    exact h.pool hs

/-- A change of a state's other parts. -/
theorem congr (h : s.Released t) (hr : u.records = t.records) (hp : u.pool = t.pool) : s.Released u :=
  h.inPlace hp (fun n hu => by rwa [State.record?_congr hr] at hu)
    fun n y hy => ⟨y, by rwa [State.record?_congr hr] at hy, rfl⟩

/-- A change of one record that keeps its extents. -/
theorem change (h : s.Released t) {n : Nat} {f : Record → Record} (hf : ∀ x, (f x).extents = x.extents) (hp : u.pool = t.pool)
    (hr : ∀ m, u.record? m = if m = n then (t.record? m).map f else t.record? m) : s.Released u := by
  refine h.inPlace hp (fun m hu => ?_) fun m y hy => ?_
  · rw [hr] at hu
    split at hu
    · exact Option.map_eq_none_iff.mp hu
    · exact hu
  · rw [hr] at hy
    split at hy
    · obtain ⟨x, hx, rfl⟩ := Option.map_eq_some_iff.mp hy
      exact ⟨x, hx, (hf x).symm⟩
    · exact ⟨y, hy, rfl⟩

theorem updRecord (h : s.Released t) (n : Nat) {f : Record → Record} (hf : ∀ x, (f x).extents = x.extents) :
    s.Released (t.updRecord n f) :=
  h.change hf (State.updRecord_pool t n f) (State.record?_updRecord t n f)

theorem endSlot (h : s.Released t) (n : Nat) (r : RouteId) (st : SlotState) : s.Released (t.endSlot n r st) :=
  h.change (f := fun x => x.ended r st) (fun x => by rw [Record.ended_eq]) (by rw [State.endSlot_frame]) fun m => by
    rw [State.record?_endSlot]
    cases t.record? m <;> rfl

/-- A record's freeing (R65). -/
theorem freeStep (h : s.Released t) (n : Nat) : s.Released (t.freeStep n) := by
  by_cases hfree : ∃ x, t.record? n = some x ∧ x.freeable = true
  · obtain ⟨x, hx, hx'⟩ := hfree
    have hpool : (t.freeStep n).pool.toList = t.pool.toList ++ x.extents := by
      unfold State.freeStep
      rw [hx]
      dsimp only
      rw [if_pos hx']
      exact (List.append_assoc _ _ _).symm
    have hrecord (m : Nat) : (t.freeStep n).record? m = if m = n then none else t.record? m := by
      rw [State.record?_freeStep]
      by_cases hm : m = n
      · rw [if_pos hm, if_pos hm, hm, hx, Option.bind_some, Record.unlessFreeable, if_pos hx']
      · rw [if_neg hm, if_neg hm]
    refine ⟨fun m y hy => ?_, fun hs => ?_⟩
    · rw [hrecord] at hy
      split at hy
      · cases hy
      · exact h.kept m y hy
    · obtain ⟨xs, hxs, hperm⟩ := h.pool hs
      obtain ⟨z, hz, hzx⟩ := h.kept n x hx
      refine ⟨xs ++ x.extents, by rw [hpool, hxs, List.append_assoc], ?_⟩
      have hnone : (fun e : Nat × Record => ((t.freeStep n).record? e.1).isNone) =
          fun e => (t.record? e.1).isNone || e.1 == n := by
        funext e
        rw [hrecord]
        by_cases he : e.1 = n <;> simp [he]
      have hsplit := Table.filter_or_perm hs hz (fun m => (t.record? m).isNone) (by rw [hx]; rfl)
      rw [hnone]
      refine List.Perm.trans ?_ (hsplit.flatMap_right _).symm
      rw [List.flatMap_append, List.flatMap_singleton, hzx]
      exact hperm.append_right _
  · have hsame : t.freeStep n = t := by
      unfold State.freeStep
      split
      · rfl
      next x hx => exact if_neg fun hx' => hfree ⟨x, hx, hx'⟩
    rwa [hsame]

theorem recordCheck (h : s.Released t) (n : Nat) : s.Released (t.recordCheck n) := by
  unfold State.recordCheck
  refine freeStep (change (n := n) (f := Record.drained) (change (n := n) (f := Record.noticed t.clusterUp) h
    (fun x => by rw [Record.noticed_eq]) (by rw [State.noticeStep_frame]) (State.noticeStep_effect t n).1)
    (fun x => by rw [Record.drained_eq]) (by rw [State.drainStep_frame]) fun m => State.record?_drainStep _ n m) n

theorem loseRef (h : s.Released t) (n : Nat) : s.Released (t.loseRef n) := by
  unfold State.loseRef
  refine freeStep ?_ n
  exact h.updRecord n fun _ => rfl

theorem loseItem (h : s.Released t) (n : Nat) : s.Released (t.loseItem n) := by
  unfold State.loseItem
  refine freeStep ?_ n
  exact h.updRecord n fun _ => rfl

/-- A pass whose every turn at most frees records. -/
theorem each {α : Type} {f : State → α → State} (hf : ∀ t a, s.Released t → s.Released (f t a)) (as : List α) (h : s.Released t) :
    s.Released (t.each as f) :=
  State.each_keeps (fun u => s.Released u) as f (fun u a _ hu => hf u a hu) t h

end State.Released

/-! ## References and items lost (R58, R64) -/

/-- The loss of references changes only the record table, the key index and the extent pool. -/
theorem State.loseRefs_frame (s : State) (ns : List Nat) :
    s.each ns State.loseRef =
      { s with
        records := (s.each ns State.loseRef).records
        keyIndex := (s.each ns State.loseRef).keyIndex
        pool := (s.each ns State.loseRef).pool } := by
  refine State.each_keeps (fun t => t = { s with records := t.records, keyIndex := t.keyIndex, pool := t.pool }) ns _
    (fun t n _ ht => ?_) s rfl
  rw [State.loseRef_frame, ht]

/-- The loss of the items of a control queue changes only the record table, the key index and the extent pool. -/
theorem State.loseItems_frame (s : State) (is : List CtrlItem) :
    (s.each is fun s i => s.loseItem i.record) =
      { s with
        records := (s.each is fun s i => s.loseItem i.record).records
        keyIndex := (s.each is fun s i => s.loseItem i.record).keyIndex
        pool := (s.each is fun s i => s.loseItem i.record).pool } := by
  refine State.each_keeps (fun t => t = { s with records := t.records, keyIndex := t.keyIndex, pool := t.pool }) is _
    (fun t i _ ht => ?_) s rfl
  rw [State.loseItem_frame, ht]

/-- From `s` to `t` the records that still stand have the slots they had. -/
def State.slotsKept (s t : State) : Prop := ∀ n w, t.record? n = some w → ∃ z, s.record? n = some z ∧ w.slots = z.slots

theorem Record.slots_of_unlessFreeable {x y : Record} (h : x.unlessFreeable = some y) : y.slots = x.slots := by
  unfold Record.unlessFreeable at h
  split at h
  · cases h
  · rw [Option.some.inj h]

namespace State.slotsKept

variable {s t : State}

theorem refl (s : State) : s.slotsKept s := fun _ w hw => ⟨w, hw, rfl⟩

theorem congr {u : State} (h : s.slotsKept t) (hr : u.records = t.records) : s.slotsKept u := fun n w hw =>
  h n w (by rwa [State.record?_congr hr] at hw)

/-- A record lost a reference or an item, or nothing. -/
theorem lost {u : State} {m : Nat} {f : Record → Record} (h : s.slotsKept t) (hf : ∀ x, (f x).slots = x.slots)
    (hr : ∀ n, u.record? n = if n = m then (t.record? n).bind fun x => Record.unlessFreeable (f x) else t.record? n) :
    s.slotsKept u := by
  intro n w hw
  rw [hr] at hw
  split at hw
  · obtain ⟨y, hy, hyw⟩ := Option.bind_eq_some_iff.mp hw
    obtain ⟨z, hz, hzy⟩ := h n y hy
    exact ⟨z, hz, ((Record.slots_of_unlessFreeable hyw).trans (hf y)).trans hzy⟩
  · exact h n w hw

theorem loseRefs (h : s.slotsKept t) (ns : List Nat) : s.slotsKept (t.each ns State.loseRef) :=
  State.each_keeps (fun u => s.slotsKept u) ns _
    (fun u m _ hu => lost (m := m) (f := fun x => { x with refs := x.refs - 1 }) hu (fun _ => rfl) fun n =>
      State.record?_loseRef u m n) t h

theorem loseItems (h : s.slotsKept t) (is : List CtrlItem) : s.slotsKept (t.each is fun s i => s.loseItem i.record) :=
  State.each_keeps (fun u => s.slotsKept u) is _
    (fun u i _ hu => lost (m := i.record) (f := fun x => { x with items := x.items - 1 }) hu (fun _ => rfl) fun n =>
      State.record?_loseItem u i.record n) t h

end State.slotsKept

end Sys2Proof.Machine
end

section
/-! SUPPORT. A route's slots ABANDONED together (R63): the records afterwards, their slots, and the notices due (R66, R67). -/

namespace Sys2Proof.Machine

/-! ## The slots that are ABANDONED -/

/-- The slots of a record once those on route `r` in a state of `p` are ABANDONED. -/
def Record.abandonedSlots (x : Record) (r : RouteId) (p : SlotState → Bool) : List Slot :=
  x.slots.map fun sl => if sl.route = r ∧ p sl.state then { sl with state := .abandoned, void := some .abandoned } else sl

section

variable {x : Record} {r : RouteId} {p : SlotState → Bool}

theorem Record.any_slotState : (x.slotState r).any p = true ↔ ∃ sl, x.slotOn r = some sl ∧ p sl.state = true := by
  rw [Record.slotState, Option.any_map, Option.any_eq_true]

/-- A route's slot in a state of `p`, found among the slots. -/
theorem Record.any_slotState_eq (hd : (x.slots.map (·.route)).Nodup) :
    (x.slotState r).any p = x.slots.any fun sl => sl.route == r && p sl.state := by
  rw [Bool.eq_iff_iff, Record.any_slotState, List.any_eq_true]
  constructor
  · rintro ⟨sl, hsl, hp⟩
    obtain ⟨hmem, hroute⟩ := Record.slotOn_eq_some hsl
    exact ⟨sl, hmem, by simpa [hroute] using hp⟩
  · rintro ⟨sl, hmem, hp⟩
    rw [Bool.and_eq_true, beq_iff_eq] at hp
    cases hsl : x.slotOn r with
    | none => exact absurd (List.find?_eq_none.mp hsl sl hmem) (by simp [hp.1])
    | some g =>
      rw [Record.eq_of_slotOn hd hsl hmem hp.1] at hp
      exact ⟨g, rfl, hp.2⟩

theorem Record.abandonedSlots_of_none (hd : (x.slots.map (·.route)).Nodup) (h : (x.slotState r).any p = false) :
    x.abandonedSlots r p = x.slots := by
  refine (List.map_congr_left fun sl hsl => if_neg ?_).trans (List.map_id' _)
  rintro ⟨hr, hp⟩
  rw [Record.any_slotState_eq hd, List.any_eq_false] at h
  exact h sl hsl (by simp [hr, hp])

theorem Record.slots_ended_abandoned (hopen : ∀ v, p v = true → v.terminal = false) (hd : (x.slots.map (·.route)).Nodup)
    (h : (x.slotState r).any p = true) : (x.ended r .abandoned).slots = x.abandonedSlots r p := by
  obtain ⟨sl, hsl, hp⟩ := Record.any_slotState.mp h
  rw [Record.ended_slots x r _ hd]
  refine List.map_congr_left fun g hg => ?_
  by_cases hr : g.route = r
  · rw [Record.eq_of_slotOn hd hsl hg hr]
    have hr := (Record.slotOn_eq_some hsl).2
    rw [if_pos ⟨hr, hopen _ hp⟩, if_pos ⟨hr, hp⟩]
    rfl
  · rw [if_neg fun h => hr h.1, if_neg fun h => hr h.1]

/-- The outcome once the route's slot is ABANDONED, by the counts of R66. -/
def Record.abandonedOutcome (x : Record) (r : RouteId) (p : SlotState → Bool) : Option RecOutcome :=
  let k := settledAndOpen (x.abandonedSlots r p)
  if x.outcome.isSome then x.outcome
  else if x.slots.any fun sl => sl.route == r && sl.required then
    if x.quorum ≤ k.1 then some .landed else if k.1 + k.2 < x.quorum then some (.voided .abandoned) else none
  else none

theorem Record.outcome_ended_abandoned (hopen : ∀ v, p v = true → v.terminal = false) (hd : (x.slots.map (·.route)).Nodup)
    (h : (x.slotState r).any p = true) : (x.ended r .abandoned).outcome = x.abandonedOutcome r p := by
  have hslots := Record.slots_ended_abandoned hopen hd h
  obtain ⟨sl, hsl, hp⟩ := Record.any_slotState.mp h
  have hrequired : (x.slots.any fun sl => sl.route == r && sl.required) = sl.required := by
    rw [Bool.eq_iff_iff, List.any_eq_true]
    constructor
    · rintro ⟨g, hg, h⟩
      rw [Bool.and_eq_true, beq_iff_eq] at h
      rw [← Record.eq_of_slotOn hd hsl hg h.1, h.2]
    · intro h
      exact ⟨sl, (Record.slotOn_eq_some hsl).1, by simp [(Record.slotOn_eq_some hsl).2, h]⟩
  obtain ⟨ht, _⟩ | ⟨g, hg, _, hend⟩ := x.ended_cases r .abandoned
  · have := ht sl hsl
    rw [hopen _ hp] at this
    cases this
  · rw [hsl, Option.some.injEq] at hg
    subst hg
    rw [Record.abandonedOutcome, hrequired, ← hslots, hend]
    cases hreq : sl.required with
    | false =>
      cases ho : x.outcome <;> simp [Record.updSlot, ho]
    | true =>
      obtain ⟨y, hy⟩ : ∃ y, y = x.updSlot r fun sl => sl.endedIn .abandoned := ⟨_, rfl⟩
      have hyo : y.outcome = x.outcome := by rw [hy]; rfl
      have hyq : y.quorum = x.quorum := by rw [hy]; rfl
      have hlanded : y.landed = decide (y.quorum ≤ (settledAndOpen y.slots).1) := rfl
      have hvoided : y.voided = decide ((settledAndOpen y.slots).1 + (settledAndOpen y.slots).2 < y.quorum) := rfl
      rw [← hy, if_pos rfl, Record.fixOutcome_slots]
      cases ho : x.outcome with
      | some o =>
        rw [ho] at hyo
        simp [Record.fixOutcome, hyo]
      | none =>
        rw [Record.outcome_fixOutcome x _ (hyo.trans ho), ← hyq, hlanded, hvoided]
        simp [SlotState.reason]

/-- The notice due at a record whose slot on the route is ABANDONED (R66, R67). -/
def Record.abandonNotice (x : Record) (r : RouteId) (p : SlotState → Bool) (up : Bool) : Option (Record × RecOutcome) :=
  if up && x.state == .live && x.notice == .owed && x.slots.any fun sl => sl.route == r && p sl.state then
    (x.abandonedOutcome r p).map fun v => ({ x with slots := x.abandonedSlots r p }, v)
  else none

/-- A notice as it is placed: its receiver and its payload. -/
def noticeSent (e : Record × RecOutcome) : Addr × List Byte := (e.1.station, noticePayload e.1 e.2)

theorem noticesOut_congr {a b : List (Record × RecOutcome)} (h : a.map noticeSent = b.map noticeSent) (q : List OutFrame) :
    noticesOut q a = noticesOut q b := by
  have hsent (ns : List (Record × RecOutcome)) :
      noticesOut q ns = (ns.map noticeSent).foldl (fun q e => queuedOut q e.1 e.2) q := by
    rw [List.foldl_map]
    rfl
  rw [hsent, hsent, h]

theorem Record.dueNotice_ended_abandoned (hopen : ∀ v, p v = true → v.terminal = false) (hd : (x.slots.map (·.route)).Nodup)
    (h : (x.slotState r).any p = true) (up : Bool) :
    ((x.ended r .abandoned).dueNotice up).map noticeSent = (x.abandonNotice r p up).map noticeSent := by
  have hy : x.ended r .abandoned =
      { x with slots := x.abandonedSlots r p, outcome := (x.ended r .abandoned).outcome } := by
    rw [← Record.slots_ended_abandoned hopen hd h]
    exact Record.ended_eq x r _
  rw [Record.abandonNotice, ← Record.outcome_ended_abandoned hopen hd h, ← Record.any_slotState_eq hd, h]
  generalize x.ended r .abandoned = y at hy ⊢
  unfold Record.dueNotice
  rw [hy]
  by_cases hdue : x.state = .live ∧ x.notice = .owed ∧ up = true
  · obtain ⟨hlive, howed, hup⟩ := hdue
    rw [if_pos ⟨hlive, howed, hup⟩, if_pos (by simp [hlive, howed, hup]), Option.map_map, Option.map_map]
    rfl
  · rw [if_neg hdue, if_neg fun h => hdue (by simp at h; exact ⟨h.1.2, h.2, h.1.1⟩)]

end

/-! ## The records afterwards -/

section

variable (s : State) (r : RouteId) (p : SlotState → Bool)

theorem State.mem_recordsWith {s : State} (hs : Table.rising s.records = true) {n : Nat} {x : Record} (hx : s.record? n = some x) :
    n ∈ s.recordsWith r p ↔ (x.slotState r).any p = true := by
  unfold State.recordsWith
  rw [List.mem_map]
  constructor
  · rintro ⟨e, he, rfl⟩
    rw [List.mem_filter] at he
    have hfind := Table.find_of_mem hs he.1
    rw [← State.record?, hx, Option.some.injEq] at hfind
    rw [hfind]
    exact he.2
  · intro h
    exact ⟨(n, x), List.mem_filter.mpr ⟨Table.mem_of_find hx, h⟩, rfl⟩

theorem State.nodup_recordsWith {s : State} (hs : Table.rising s.records = true) : (s.recordsWith r p).Nodup :=
  (Table.nodup_keys hs).sublist (List.filter_sublist.map _)

/-- The route's slots at the records `ns`, ended as ABANDONED. -/
def State.abandonAt (ns : List Nat) : State := s.each ns fun s n => s.endSlot n r .abandoned

theorem State.abandonAt_frame (ns : List Nat) :
    s.abandonAt r ns = { s with records := (s.abandonAt r ns).records, counters := (s.abandonAt r ns).counters } := by
  refine State.each_keeps (fun t => t = { s with records := t.records, counters := t.counters }) ns _ (fun t n _ ht => ?_) s rfl
  rw [State.endSlot_frame, ht]

theorem State.record?_abandonAt (ns : List Nat) (m : Nat) :
    (s.abandonAt r ns).record? m = if m ∈ ns then (s.record? m).map (Record.ended · r .abandoned) else s.record? m := by
  have h := State.record?_each (fun _ => True) (F := fun s n => State.endSlot s n r .abandoned) (key := fun n : Nat => n)
    (G := fun x => some (x.ended r .abandoned)) (fun _ _ _ => trivial) (fun t n m _ => State.record?_endSlot t n r _ m)
    (fun x => congrArg some (Record.ended_ended x r rfl)) ns s trivial m
  rw [List.map_id'] at h
  refine h.trans ?_
  cases s.record? m <;> rfl

/-- The end of a route's slots changes only records, key index, extent pool, output queue and counters. -/
theorem State.abandonSlots_frame :
    s.abandonSlots r p =
      { s with
        records := (s.abandonSlots r p).records
        keyIndex := (s.abandonSlots r p).keyIndex
        pool := (s.abandonSlots r p).pool
        outQ := (s.abandonSlots r p).outQ
        counters := (s.abandonSlots r p).counters } := by
  refine State.each_keeps (fun t => t = { s with
      records := t.records, keyIndex := t.keyIndex, pool := t.pool, outQ := t.outQ, counters := t.counters }) _ _
    (fun t n _ ht => ?_) (s.abandonAt r (s.recordsWith r p)) ?_
  · rw [State.recordCheck_frame, ht]
  · rw [State.abandonAt_frame]

@[simp] theorem State.abandonSlots_routes : (s.abandonSlots r p).routes = s.routes := by rw [State.abandonSlots_frame]

@[simp] theorem State.abandonSlots_assemblies : (s.abandonSlots r p).assemblies = s.assemblies := by rw [State.abandonSlots_frame]

@[simp] theorem State.abandonSlots_descFree : (s.abandonSlots r p).descFree = s.descFree := by rw [State.abandonSlots_frame]

@[simp] theorem State.abandonSlots_latches : (s.abandonSlots r p).latches = s.latches := by rw [State.abandonSlots_frame]

@[simp] theorem State.route_abandonSlots (q : RouteId) : (s.abandonSlots r p).route q = s.route q :=
  State.route_congr (State.abandonSlots_routes s r p) q

theorem State.abandonAt_clusterUp (ns : List Nat) : (s.abandonAt r ns).clusterUp = s.clusterUp := by
  rw [State.abandonAt_frame]

theorem State.record?_abandonSlots (n : Nat) :
    (s.abandonSlots r p).record? n =
      if n ∈ s.recordsWith r p then (s.record? n).bind fun x => (x.ended r .abandoned).checked s.clusterUp else s.record? n := by
  refine (State.record?_recordChecks (s.abandonAt r (s.recordsWith r p)) (s.recordsWith r p) n).trans ?_
  rw [State.abandonAt_clusterUp, State.record?_abandonAt]
  by_cases hn : n ∈ s.recordsWith r p
  · simp only [if_pos hn]
    cases s.record? n <;> rfl
  · simp only [if_neg hn]

theorem State.Released.abandonSlots {b s : State} (h : b.Released s) (r : RouteId) (p : SlotState → Bool) :
    b.Released (s.abandonSlots r p) :=
  State.Released.each (fun _ n h => h.recordCheck n) _ (State.Released.each (fun _ n h => h.endSlot n r .abandoned) _ h)

theorem State.counter_abandonSlots {c : Counter} (hc : c.apartFromRecords) : (s.abandonSlots r p).counter c = s.counter c :=
  (State.counter_recordChecks hc _ _).trans
    (State.each_keeps (fun t => t.counter c = s.counter c) _ _ (fun t n _ ht => (State.counter_endSlot hc t n r _).trans ht) s rfl)

theorem State.isPrefix_abandonSlots_outQ : s.outQ <+: (s.abandonSlots r p).outQ := by
  have hsame : (s.abandonAt r (s.recordsWith r p)).outQ = s.outQ := by rw [State.abandonAt_frame]
  have h := State.isPrefix_recordChecks_outQ (s.abandonAt r (s.recordsWith r p)) (s.recordsWith r p)
  rwa [hsame] at h

theorem State.abandonDue_eq : s.abandonDue r p = s.records.filterMap fun e => e.2.abandonNotice r p s.clusterUp := rfl

/-! ## What they say -/

variable {s r p} (hopen : ∀ v, p v = true → v.terminal = false) (hs : Table.rising s.records = true)

include hopen hs

/-- A record that stands after the end of the route's slots has those in a state of `p` ABANDONED. -/
theorem State.slots_abandonSlots {n : Nat} {y z : Record} (hy : s.record? n = some y) (hd : (y.slots.map (·.route)).Nodup)
    (hz : (s.abandonSlots r p).record? n = some z) : z.slots = y.abandonedSlots r p := by
  rw [State.record?_abandonSlots, hy, Option.bind_some] at hz
  by_cases hn : n ∈ s.recordsWith r p
  · rw [if_pos hn] at hz
    rw [← Record.slots_ended_abandoned hopen hd ((State.mem_recordsWith r p hs hy).mp hn), Record.checked_eq hz]
  · rw [if_neg hn, Option.some.injEq] at hz
    have hnone := mt (State.mem_recordsWith r p hs hy).mpr hn
    rw [Record.abandonedSlots_of_none hd (Bool.eq_false_iff.mpr hnone), hz]

/-- The notices that the end of the route's slots makes due stand in the queue in record number order (log entry 9). -/
theorem State.abandonSlots_outQ (hd : ∀ e ∈ s.records, (e.2.slots.map (·.route)).Nodup) :
    (s.abandonSlots r p).outQ = noticesOut s.outQ (s.abandonDue r p) := by
  have hout := State.recordChecks_outQ (s.abandonAt r (s.recordsWith r p)) (State.nodup_recordsWith r p hs)
  have hsame : (s.abandonAt r (s.recordsWith r p)).outQ = s.outQ := by rw [State.abandonAt_frame]
  rw [hsame, State.abandonAt_clusterUp] at hout
  refine hout.trans ?_
  refine noticesOut_congr ?_ s.outQ
  rw [State.abandonDue_eq, List.map_filterMap, List.map_filterMap]
  conv_lhs => arg 2; unfold State.recordsWith
  rw [List.filterMap_map, List.filterMap_filter]
  refine List.filterMap_congr fun e he => ?_
  have hx : s.record? e.1 = some e.2 := Table.find_of_mem hs he
  dsimp only [Function.comp_apply]
  by_cases hp : (e.2.slotState r).any p = true
  · rw [if_pos hp, State.record?_abandonAt, if_pos ((State.mem_recordsWith r p hs hx).mpr hp), hx, Option.map_some,
      Option.bind_some, Record.dueNotice_ended_abandoned hopen (hd e he) hp]
  · rw [if_neg hp, Record.abandonNotice, ← Record.any_slotState_eq (hd e he), Bool.eq_false_iff.mpr hp, Bool.and_false,
      if_neg Bool.false_ne_true]
    rfl

end

end Sys2Proof.Machine
end

section
/-! SUPPORT. A route's queues, buffers and window discarded (R81, R99, R123), and the inbound reset (R158). -/

namespace Sys2Proof.Machine

/-! ## Work discarded -/

theorem State.route_loseRefs (s : State) (ns : List Nat) (q : RouteId) : (s.each ns State.loseRef).route q = s.route q :=
  State.route_congr (by rw [State.loseRefs_frame]) q

theorem State.route_loseItems (s : State) (is : List CtrlItem) (q : RouteId) :
    (s.each is fun s i => s.loseItem i.record).route q = s.route q :=
  State.route_congr (by rw [State.loseItems_frame]) q

/-- From `s` to `t` work of route `r` was discarded: the route's state changed, `k` descriptors returned, and records lost references
and items, some of them free with it (R58, R64, R65). -/
structure State.Discards (r : RouteId) (k : Nat) (s t : State) : Prop where
  frame : t =
    { s with routes := t.routes, records := t.records, keyIndex := t.keyIndex, pool := t.pool, descFree := s.descFree + k }
  others : ∀ q, q ≠ r → t.route q = s.route q
  released : ∀ b : State, b.Released s → b.Released t
  slots : ∀ b : State, b.slotsKept s → b.slotsKept t

namespace State.Discards

variable {r : RouteId} {j k : Nat} {s t u : State}

theorem trans (h : State.Discards r j s t) (h' : State.Discards r k t u) : State.Discards r (j + k) s u where
  frame := by rw [h'.frame, h.frame, Nat.add_assoc]
  others q hq := (h'.others q hq).trans (h.others q hq)
  released b hb := h'.released b (h.released b hb)
  slots b hb := h'.slots b (h.slots b hb)

theorem latches (h : State.Discards r k s t) : t.latches = s.latches := by rw [h.frame]

theorem outQ (h : State.Discards r k s t) : t.outQ = s.outQ := by rw [h.frame]

theorem counters (h : State.Discards r k s t) : t.counters = s.counters := by rw [h.frame]

theorem assemblies (h : State.Discards r k s t) : t.assemblies = s.assemblies := by rw [h.frame]

theorem descFree (h : State.Discards r k s t) : t.descFree = s.descFree + k := by rw [h.frame]

/-- A change of the route alone. -/
theorem updRoute (s : State) (f : Route → Route) : State.Discards r 0 s (s.updRoute r f) where
  frame := rfl
  others _ hq := State.route_updRoute_of_ne s f hq
  released _ hb := hb.congr rfl rfl
  slots _ hb := hb.congr rfl

theorem loseRefs (s : State) (ns : List Nat) : State.Discards r 0 s (s.each ns State.loseRef) where
  frame := by rw [s.loseRefs_frame ns]; rfl
  others q _ := s.route_loseRefs ns q
  released _ hb := State.Released.each (fun _ n h => h.loseRef n) ns hb
  slots _ hb := hb.loseRefs ns

theorem loseItems (s : State) (is : List CtrlItem) : State.Discards r 0 s (s.each is fun s i => s.loseItem i.record) where
  frame := by rw [s.loseItems_frame is]; rfl
  others q _ := s.route_loseItems is q
  released _ hb := State.Released.each (fun _ i h => h.loseItem i.record) is hb
  slots _ hb := hb.loseItems is

theorem returned (s : State) (k : Nat) : State.Discards r k s { s with descFree := s.descFree + k } where
  frame := rfl
  others _ _ := rfl
  released _ hb := hb.congr rfl rfl
  slots _ hb := hb.congr rfl

theorem clearQueues (s : State) (r : RouteId) : State.Discards r 0 s (s.clearQueues r) :=
  trans (j := 0) (k := 0) (updRoute s _) (loseItems _ _)

theorem discardBuffers (s : State) (r : RouteId) : State.Discards r 0 s (s.discardBuffers r) :=
  trans (j := 0) (k := 0) (updRoute s _) (loseRefs _ _)

theorem discardWindow (s : State) (r : RouteId) : State.Discards r (s.route r).tx.window.length s (s.discardWindow r) := by
  have h : State.Discards r (0 + 0 + (s.route r).tx.window.length) s (s.discardWindow r) :=
    ((updRoute s _).trans (loseRefs _ _)).trans (returned _ _)
  rwa [Nat.zero_add] at h

end State.Discards

section

variable (s : State) (r : RouteId)

theorem State.route_clearQueues :
    (s.clearQueues r).route r =
      { s.route r with bld := { (s.route r).bld with ctrlQ := [], classQ := Vector.replicate 4 [] } } :=
  (State.route_loseItems _ _ r).trans (State.route_updBld_self s r _)

theorem State.route_discardBuffers :
    (s.discardBuffers r).route r =
      { s.route r with
        bld := { (s.route r).bld with
                 fill := .empty, fillSpan := Span.empty, ready := none, marker := none, holdStart := none } } :=
  (State.route_loseRefs _ _ r).trans (State.route_updBld_self s r _)

theorem State.route_discardWindow :
    (s.discardWindow r).route r =
      { s.route r with
        tx := { Transmit.reset with
                receiptDue := (s.route r).tx.receiptDue
                probeDue := (s.route r).tx.probeDue
                replyDue := (s.route r).tx.replyDue } } :=
  (State.route_loseRefs _ _ r).trans (State.route_updTx_self s r _)

/-! ## The inbound reset (R158) -/

theorem State.freeAsm_frame (a : Nat) :
    s.freeAsm a = { s with assemblies := (s.freeAsm a).assemblies, pool := (s.freeAsm a).pool } := by
  unfold State.freeAsm
  split <;> rfl

theorem State.freeAsms_frame (as : List Nat) :
    s.each as State.freeAsm =
      { s with assemblies := (s.each as State.freeAsm).assemblies, pool := (s.each as State.freeAsm).pool } := by
  refine State.each_keeps (fun t => t = { s with assemblies := t.assemblies, pool := t.pool }) as _ (fun t a _ ht => ?_) s rfl
  rw [State.freeAsm_frame, ht]

theorem State.asm?_freeAsm (a b : Nat) : (s.freeAsm a).asm? b = if b = a then none else s.asm? b := by
  cases ha : s.asm? a with
  | none =>
    have hsame : s.freeAsm a = s := by
      unfold State.freeAsm
      rw [ha]
    rw [hsame]
    split
    next h => rw [h, ha]
    next => rfl
  | some x =>
    unfold State.freeAsm
    rw [ha]
    by_cases h : b = a
    · rw [if_pos h, h]
      exact Table.find_erase_self s.assemblies a
    · rw [if_neg h]
      exact Table.find_erase_of_ne s.assemblies h

theorem State.asm?_freeAsms (as : List Nat) (b : Nat) :
    (s.each as State.freeAsm).asm? b = if b ∈ as then none else s.asm? b := by
  induction as generalizing s with
  | nil => exact (if_neg (by simp)).symm
  | cons a as ih =>
    refine (ih (s.freeAsm a)).trans ?_
    rw [State.asm?_freeAsm]
    by_cases h : b = a <;> by_cases h' : b ∈ as <;> simp [h, h']

/-- The extents of the assemblies freed stand at the tail of the free list, in the order of the pass. -/
theorem State.freeAsms_pool {s : State} {es : List (Nat × Assembly)} (hd : (es.map (·.1)).Nodup)
    (h : ∀ e ∈ es, s.asm? e.1 = some e.2) :
    (s.each (es.map (·.1)) State.freeAsm).pool.toList = s.pool.toList ++ es.flatMap (·.2.extents) := by
  induction es generalizing s with
  | nil => exact (List.append_nil _).symm
  | cons e es ih =>
    obtain ⟨hnew, hd⟩ := List.nodup_cons.mp hd
    have hrest : ∀ e' ∈ es, (s.freeAsm e.1).asm? e'.1 = some e'.2 := fun e' he' => by
      have hne : e'.1 ≠ e.1 := fun heq => hnew (List.mem_map.mpr ⟨e', he', heq⟩)
      rw [State.asm?_freeAsm, if_neg hne]
      exact h e' (List.mem_cons_of_mem _ he')
    have hfirst : (s.freeAsm e.1).pool.toList = s.pool.toList ++ e.2.extents := by
      unfold State.freeAsm
      rw [h e List.mem_cons_self]
      exact (List.append_assoc _ _ _).symm
    refine (ih hd hrest).trans ?_
    rw [hfirst, List.flatMap_cons, List.append_assoc]

theorem State.inboundReset_frame :
    s.inboundReset r =
      { s with
        routes := (s.inboundReset r).routes, assemblies := (s.inboundReset r).assemblies, pool := (s.inboundReset r).pool } := by
  unfold State.inboundReset
  rw [State.freeAsms_frame]
  rfl

@[simp] theorem State.inboundReset_records : (s.inboundReset r).records = s.records := by rw [State.inboundReset_frame]

@[simp] theorem State.inboundReset_descFree : (s.inboundReset r).descFree = s.descFree := by rw [State.inboundReset_frame]

@[simp] theorem State.inboundReset_latches : (s.inboundReset r).latches = s.latches := by rw [State.inboundReset_frame]

@[simp] theorem State.inboundReset_outQ : (s.inboundReset r).outQ = s.outQ := by rw [State.inboundReset_frame]

@[simp] theorem State.inboundReset_counters : (s.inboundReset r).counters = s.counters := by rw [State.inboundReset_frame]

theorem State.route_inboundReset : (s.inboundReset r).route r = { s.route r with inb := Inbound.reset } :=
  (State.route_updInb_self _ r _).trans
    (congrArg (fun x : Route => { x with inb := Inbound.reset }) (State.route_congr (by rw [State.freeAsms_frame]) r))

theorem State.route_inboundReset_of_ne {q : RouteId} (hq : q ≠ r) : (s.inboundReset r).route q = s.route q :=
  (State.route_updInb_of_ne _ _ hq).trans (State.route_congr (by rw [State.freeAsms_frame]) q)

theorem State.asm?_inboundReset (hs : Table.rising s.assemblies = true) (a : Nat) :
    (s.inboundReset r).asm? a = (s.asm? a).bind fun z =>
      if z.route ≠ r then some z else if z.state = .assembling then none else some { z with standing := .detached } := by
  have hdetach (t : Table Assembly) :
      detachStandings r t = t.map fun e => (e.1, if e.2.route = r then { e.2 with standing := .detached } else e.2) :=
    List.map_congr_left fun e _ => by split <;> rfl
  have hfreed := s.asm?_freeAsms (s.assembling r) a
  have hread : (s.inboundReset r).asm? a = ((s.each (s.assembling r) State.freeAsm).asm? a).map fun z =>
      if z.route = r then { z with standing := .detached } else z := by
    refine Eq.trans (b := Table.find (detachStandings r _) a) rfl ?_
    rw [hdetach, Table.find_mapValues]
    rfl
  rw [hread, hfreed]
  have hmem (z : Assembly) (hz : s.asm? a = some z) : a ∈ s.assembling r ↔ z.route = r ∧ z.state = .assembling := by
    unfold State.assembling
    rw [List.mem_map]
    constructor
    · rintro ⟨e, he, rfl⟩
      rw [List.mem_filter] at he
      have hfind := Table.find_of_mem hs he.1
      rw [← State.asm?, hz, Option.some.injEq] at hfind
      simpa [hfind] using he.2
    · intro h
      exact ⟨(a, z), List.mem_filter.mpr ⟨Table.mem_of_find hz, by simp [h.1, h.2]⟩, rfl⟩
  cases hz : s.asm? a with
  | none => simp
  | some z =>
    by_cases hr : z.route = r
    · by_cases hst : z.state = .assembling <;> simp [hmem z hz, hr, hst]
    · simp [hmem z hz, hr]

theorem State.inboundReset_pool (hs : Table.rising s.assemblies = true) :
    (s.inboundReset r).pool.toList =
      s.pool.toList ++ (s.assemblies.filter fun e => e.2.route == r && e.2.state == .assembling).flatMap (·.2.extents) :=
  State.freeAsms_pool ((Table.nodup_keys hs).sublist (List.filter_sublist.map _))
    fun _ he => Table.find_of_mem hs (List.mem_filter.mp he).1

/-- Records freed up to `u`, and then the inbound reset. -/
theorem State.inboundDropped_of_reset {s u t : State} {r : RouteId} (hu : s.Released u) (ha : u.assemblies = s.assemblies)
    (hr : t.records = u.records) (hta : t.assemblies = (u.inboundReset r).assemblies)
    (htp : t.pool = (u.inboundReset r).pool) : s.inboundDropped t r := by
  have hfind (a : Nat) : u.asm? a = s.asm? a := by
    unfold State.asm?
    rw [ha]
  refine ⟨fun hs a => ?_, fun hs hrising => ?_⟩
  · have hread : t.asm? a = (u.inboundReset r).asm? a := by
      unfold State.asm?
      rw [hta]
    rw [hread, State.asm?_inboundReset u r (by rwa [ha]), hfind]
  · obtain ⟨xs, hxs, hperm⟩ := hu.pool hrising
    refine ⟨xs ++ (s.assemblies.filter fun e => e.2.route == r && e.2.state == .assembling).flatMap (·.2.extents), ?_, ?_⟩
    · rw [htp, State.inboundReset_pool u r (by rwa [ha]), hxs, ha, List.append_assoc]
    · simp only [State.record?_congr hr]
      exact hperm.append_right _

end

end Sys2Proof.Machine
end

section
/-! SUPPORT. The close of a route (R152), and the end of a parcel whose command latches. -/

namespace Sys2Proof.Machine

/-! ## The end of a parcel whose command latched (R177, R178, R189) -/

theorem alertedOut_congr {s t u : State} (hl : t.latches = u.latches) (hm : t.mask = u.mask) (hs : t.settings = u.settings)
    (hn : t.now = u.now) (q : List OutFrame) : alertedOut s t q = alertedOut s u q := by
  unfold alertedOut
  rw [hl, hm, hs, hn]

/-- The end of a parcel changes only the output queue, the parcel queue and the counters. -/
theorem State.finish_frame_of_parcels {s : State} {p : Parcel} {rest : List Parcel} {y : Reply} (hp : y.state.parcels = p :: rest) :
    s.finish p y =
      { y.state with outQ := (s.finish p y).outQ, parcels := rest, counters := (s.finish p y).counters } := by
  unfold State.finish
  dsimp only
  rw [State.countParcel_frame, State.placeOut_frame, State.alertFrom_frame]
  dsimp only
  rw [hp, List.drop_one, List.tail_cons]

/-- A status parcel is counted on what the three parcel counters hold. -/
theorem State.answered_of_counters {c c' t : State} {q : List OutFrame} {p : Parcel} {rest : List Parcel} {v : ParcelVerdict}
    {discard : Bool} {results : List Byte} (h : c'.answered t q p rest v discard results)
    (hc : ∀ m, m ≠ .alertsSent → c'.counter (.management m) = c.counter (.management m)) :
    c.answered t q p rest v discard results := by
  unfold State.answered at h ⊢
  rwa [← hc .parcelsExecuted (by decide), ← hc .parcelsRefused (by decide), ← hc .parcelsPartial (by decide)]

/-- The end of a parcel answers it behind what its command left in the output queue and the alert (R178, R189). -/
theorem State.finish_answered_alerted {s : State} {p : Parcel} {rest : List Parcel} {y : Reply} (hp : y.state.parcels = p :: rest)
    (hc : ∀ m, y.state.counter (.management m) = s.counter (.management m)) :
    s.answered (s.finish p y) (alertedOut s y.state y.state.outQ) p rest y.verdict y.discard y.results := by
  have hframe := State.finish_frame_of_parcels (s := s) hp
  refine State.answered_of_counters (c' := s.alertFrom y.state) (State.answered_of_countParcel
    (u := (s.alertFrom y.state).placeOut p.src (statusPayload p.command p.tag y.verdict y.discard y.results))
    ?_ (by rw [hframe]) rfl fun m => ?_) fun m hm => ?_
  · rw [← State.alertFrom_outQ]
    unfold State.finish
    dsimp only
    rw [State.countParcel_frame]
    exact State.placeOut_outQ _ _ _
  · exact State.counter_placeOut_of_key_ne _ _ _ (by cases m <;> decide)
  · refine (State.counter_alertFrom_of_key_ne s y.state (fun hkey => hm ?_) (by cases m <;> decide)).trans (hc m)
    exact Counter.management.inj (Counter.key_injective hkey)

/-! ## What the end of a route's work changes -/

/-- From `s` to `t` only what the end of a route's work reaches changed. -/
def State.RouteWork (s t : State) : Prop :=
  t = { s with
        routes := t.routes, records := t.records, keyIndex := t.keyIndex, pool := t.pool, assemblies := t.assemblies
        descFree := t.descFree, latches := t.latches, outQ := t.outQ, counters := t.counters }

namespace State.RouteWork

theorem trans {s t u : State} (h : s.RouteWork t) (h' : t.RouteWork u) : s.RouteWork u := by
  unfold State.RouteWork at h h' ⊢
  rw [h', h]

theorem abandonSlots (s : State) (r : RouteId) (p : SlotState → Bool) : s.RouteWork (s.abandonSlots r p) := by
  unfold State.RouteWork
  rw [State.abandonSlots_frame]

theorem discards {s t : State} {r : RouteId} {k : Nat} (h : State.Discards r k s t) : s.RouteWork t := by
  unfold State.RouteWork
  rw [h.frame]

section

variable {b s : State} (h : b.RouteWork s)

include h

theorem updRoute (r : RouteId) (f : Route → Route) : b.RouteWork (s.updRoute r f) := h.trans rfl

theorem inboundReset (r : RouteId) : b.RouteWork (s.inboundReset r) := by
  refine h.trans ?_
  unfold State.RouteWork
  rw [State.inboundReset_frame]

theorem latch (c : EventClass) : b.RouteWork (s.latch c) := h.trans rfl

theorem countRoute (r : RouteId) (c : RouteCounter) : b.RouteWork (s.countRoute r c) := h.trans rfl

end

/-- The parcel that ran it leaves the queue, with its alert, its status parcel and its counts. -/
theorem parcelLeft {s t u : State} {rest : List Parcel} (h : s.RouteWork t)
    (hu : u = { t with outQ := u.outQ, parcels := rest, counters := u.counters }) :
    u = { s with
          routes := u.routes, records := u.records, keyIndex := u.keyIndex, pool := u.pool, assemblies := u.assemblies
          descFree := t.descFree, latches := t.latches, outQ := u.outQ, parcels := rest, counters := u.counters } := by
  unfold State.RouteWork at h
  rw [hu, h]

end State.RouteWork

@[simp] theorem State.latch_latches (s : State) (c : EventClass) : (s.latch c).latches = s.latches ||| c.bit := rfl

/-! ## The close (R152) -/

section

variable (s : State) (r : RouteId)

/-- A route closed up to its transmit state: its slots ABANDONED, its queues, buffers and window discarded. -/
def State.closeWork : State := (((s.abandonRoute r).clearQueues r).discardBuffers r).discardWindow r

/-- The close up to the inbound reset: the transmit and pacing state take their closed values. -/
def State.closeLocal : State := ((s.closeWork r).updTx r fun _ => Transmit.reset).takeClosed r

theorem State.closeRoute_eq :
    s.closeRoute r = ((State.inboundReset (s.closeLocal r) r).updCtl r closedControl).latch .routeChange := by
  unfold State.closeRoute State.closeLocal State.closeWork
  rfl

theorem State.closeWork_discards : State.Discards r (s.route r).tx.window.length (s.abandonRoute r) (s.closeWork r) := by
  have hwindow : ((((s.abandonRoute r).clearQueues r).discardBuffers r).route r).tx = (s.route r).tx := by
    rw [State.route_discardBuffers, State.route_clearQueues, State.abandonRoute, State.route_abandonSlots]
  have h := ((State.Discards.clearQueues (s.abandonRoute r) r).trans (State.Discards.discardBuffers _ r)).trans
    (State.Discards.discardWindow _ r)
  rwa [hwindow, Nat.zero_add] at h

theorem State.closeRoute_work : s.RouteWork (s.closeRoute r) := by
  rw [State.closeRoute_eq, State.closeLocal, State.takeClosed]
  exact State.RouteWork.latch (State.RouteWork.updRoute (State.RouteWork.inboundReset (State.RouteWork.updRoute
    (State.RouteWork.updRoute ((State.RouteWork.abandonSlots s r _).trans (State.RouteWork.discards (s.closeWork_discards r)))
      r _) r _) r) r _) _

theorem State.closeRoute_descFree : (s.closeRoute r).descFree = s.descFree + (s.route r).tx.window.length := by
  simp [State.closeRoute_eq, State.closeLocal, State.takeClosed, (s.closeWork_discards r).descFree, State.abandonRoute]

theorem State.closeRoute_latches : (s.closeRoute r).latches = s.latches ||| 0x0001 := by
  have hbit : EventClass.routeChange.bit = 0x0001 := rfl
  simp [State.closeRoute_eq, State.closeLocal, State.takeClosed, (s.closeWork_discards r).latches, State.abandonRoute, hbit]

theorem State.closeRoute_outQ : (s.closeRoute r).outQ = (s.abandonRoute r).outQ := by
  simp [State.closeRoute_eq, State.closeLocal, State.takeClosed, (s.closeWork_discards r).outQ]

theorem State.closeRoute_counters : (s.closeRoute r).counters = (s.abandonRoute r).counters := by
  simp [State.closeRoute_eq, State.closeLocal, State.takeClosed, (s.closeWork_discards r).counters]

theorem State.closeRoute_records : (s.closeRoute r).records = (s.closeLocal r).records := by
  simp [State.closeRoute_eq]

theorem State.closeRoute_assemblies : (s.closeRoute r).assemblies = (State.inboundReset (s.closeLocal r) r).assemblies := by
  simp [State.closeRoute_eq]

theorem State.closeRoute_pool : (s.closeRoute r).pool = (State.inboundReset (s.closeLocal r) r).pool := by
  simp [State.closeRoute_eq]

theorem State.closeLocal_records : (s.closeLocal r).records = (s.closeWork r).records := by
  simp [State.closeLocal, State.takeClosed]

theorem State.closeLocal_pool : (s.closeLocal r).pool = (s.closeWork r).pool := by
  simp [State.closeLocal, State.takeClosed]

theorem State.closeLocal_assemblies : (s.closeLocal r).assemblies = s.assemblies := by
  simp [State.closeLocal, State.takeClosed, (s.closeWork_discards r).assemblies, State.abandonRoute]

theorem State.route_closeRoute :
    (s.closeRoute r).route r =
      { cfg := (s.route r).cfg, ctl := { Control.reset with prevLife := (s.route r).ctl.prevLife }, pace := Pacing.reset
        tx := Transmit.reset, bld := Builder.reset, inb := Inbound.reset } := by
  have hwork : (s.closeWork r).route r = { s.route r with bld := Builder.reset, tx := ((s.closeWork r).route r).tx } := by
    unfold State.closeWork
    rw [State.route_discardWindow, State.route_discardBuffers, State.route_clearQueues, State.abandonRoute,
      State.route_abandonSlots]
    rfl
  rw [State.closeRoute_eq, State.route_latch, State.route_updCtl_self, State.route_inboundReset, State.closeLocal,
    State.takeClosed, State.route_updPace_self, State.route_updTx_self, hwork]
  rfl

theorem State.route_closeRoute_of_ne {q : RouteId} (hq : q ≠ r) : (s.closeRoute r).route q = s.route q := by
  rw [State.closeRoute_eq, State.route_latch, State.route_updCtl_of_ne _ _ hq, State.route_inboundReset_of_ne _ _ hq,
    State.closeLocal, State.takeClosed, State.route_updPace_of_ne _ _ hq, State.route_updTx_of_ne _ _ hq,
    (s.closeWork_discards r).others q hq, State.abandonRoute, State.route_abandonSlots]

theorem State.closeWork_released : s.Released (s.closeWork r) :=
  (s.closeWork_discards r).released s ((State.Released.refl s).abandonSlots r _)

theorem State.closeRoute_inboundDropped {t : State} (hr : t.records = (s.closeRoute r).records)
    (ha : t.assemblies = (s.closeRoute r).assemblies) (hp : t.pool = (s.closeRoute r).pool) : s.inboundDropped t r :=
  State.inboundDropped_of_reset ((s.closeWork_released r).congr (s.closeLocal_records r) (s.closeLocal_pool r))
    (s.closeLocal_assemblies r) (hr.trans (s.closeRoute_records r)) (ha.trans (s.closeRoute_assemblies r))
    (hp.trans (s.closeRoute_pool r))

theorem State.routeResults_closeRoute : (s.closeRoute r).routeResults r = toBE 1 r.val ++ [0, 0, 0, 0, 0, 0, 0] := by
  have hclosed : toBE 1 RouteState.closed.code ++ toBE 1 (bitByte false 0) ++ toBE 1 0 ++ toBE 4 (0 : Word).toNat =
      [0, 0, 0, 0, 0, 0, 0] := by decide
  unfold State.routeResults
  rw [State.route_closeRoute, ← hclosed]
  simp only [List.append_assoc]
  rfl

/-- The slots of a record that stands after the close. -/
theorem State.slots_closeRoute {s : State} (hs : Table.rising s.records = true) {n : Nat} {y z : Record} (hy : s.record? n = some y)
    (hd : (y.slots.map (·.route)).Nodup) (hz : (s.closeRoute r).record? n = some z) :
    z.slots = y.abandonedSlots r fun st => !st.terminal := by
  rw [State.record?_congr ((s.closeRoute_records r).trans (s.closeLocal_records r))] at hz
  obtain ⟨w, hw, hslots⟩ := (s.closeWork_discards r).slots _ (State.slotsKept.refl _) n z hz
  rw [hslots]
  exact State.slots_abandonSlots (p := fun st => !st.terminal) (fun v hv => by simpa using hv) hs hy hd hw

end

/-! ## ROUTE CLOSE -/

theorem exec_routeClose_of_read {s : State} {p : Parcel} {rest : List Parcel} {r : RouteId} (hp : s.parcels = p :: rest)
    (hc : readParcel p.bytes = some (.route r.val .closeRoute)) :
    exec .routeClose s =
      .next (s.finish p
        { state := s.closeIfOpen r, verdict := .done, discard := false, results := (s.closeIfOpen r).routeResults r }) := by
  refine State.runParcel_of_read hp hc ?_
  simp [State.actRoute]

/-- Settles O47: the close is its stages in turn; only the first places notices, and the reset alone reaches assemblies. -/
theorem routeCloses : Obligations.RouteCloses := by
  intro s p rest r hp hc x
  refine ⟨fun hclosed => ?_, fun hopen => ?_⟩
  · have hsame : s.closeIfOpen r = s := if_pos hclosed
    refine ⟨_, exec_routeClose_of_read hp hc, ?_⟩
    rw [hsame]
    exact ⟨State.finish_frame rfl hp, State.finish_answered rfl hp rfl rfl⟩
  · have hclose : s.closeIfOpen r = s.closeRoute r := if_neg hopen
    have hwork := s.closeRoute_work r
    have hparcels : (s.closeRoute r).parcels = p :: rest := by
      rw [hwork]
      exact hp
    obtain ⟨y, hy⟩ : ∃ y : Reply, y =
        { state := s.closeRoute r, verdict := .done, discard := false, results := (s.closeRoute r).routeResults r } := ⟨_, rfl⟩
    have hstate : y.state = s.closeRoute r := by rw [hy]
    have hframe := State.finish_frame_of_parcels (s := s) (y := y) (by rw [hstate]; exact hparcels)
    have hanswered := State.finish_answered_alerted (s := s) (y := y) (by rw [hstate]; exact hparcels) fun m => by
      rw [hstate, State.counter_congr (s.closeRoute_counters r)]
      exact State.counter_abandonSlots s r _ (Counter.management_apartFromRecords m)
    rw [hstate] at hframe hanswered
    have hq : alertedOut s (s.finish p y) (s.closeRoute r).outQ = alertedOut s (s.closeRoute r) (s.closeRoute r).outQ :=
      alertedOut_congr (by rw [hframe]) (by rw [hframe]) (by rw [hframe]) (by rw [hframe]) _
    obtain ⟨hverdict, hdiscard, hresults⟩ : y.verdict = .done ∧ y.discard = false ∧ y.results = toBE 1 r.val ++ [0, 0, 0, 0, 0, 0, 0] := by
      rw [hy]
      exact ⟨rfl, rfl, s.routeResults_closeRoute r⟩
    rw [hverdict, hdiscard, hresults] at hanswered
    have hexec := exec_routeClose_of_read hp hc
    rw [hclose, ← hy] at hexec
    refine ⟨s.finish p y, _, hexec, ?_, ?_, fun k hk => ?_, ?_, fun n y' z hs hy' hd hz => ?_, ?_, fun hs hd => ?_, hanswered⟩
    · refine List.IsPrefix.trans ?_ (isPrefix_alertedOut _ _ _)
      rw [s.closeRoute_outQ r]
      exact State.isPrefix_abandonSlots_outQ s r _
    · rw [← s.closeRoute_descFree r, ← s.closeRoute_latches r]
      exact hwork.parcelLeft hframe
    · exact (State.route_congr (by rw [hframe]) k).trans (s.route_closeRoute_of_ne r hk)
    · exact (State.route_congr (by rw [hframe]) r).trans (s.route_closeRoute r)
    · have hz' : (s.closeRoute r).record? n = some z := by
        rwa [← State.record?_congr (t := s.finish p y) (by rw [hframe])]
      rw [State.slots_closeRoute r hs hy' hd hz', Record.abandonedSlots, List.map_map]
      refine List.map_congr_left fun sl _ => ?_
      by_cases h : sl.route = r ∧ sl.state.terminal = false <;> simp [h]
    · exact s.closeRoute_inboundDropped r (by rw [hframe]) (by rw [hframe]) (by rw [hframe])
    · rw [← hq, s.closeRoute_outQ r]
      exact congrArg _ (State.abandonSlots_outQ (p := fun st => !st.terminal) (fun v hv => by simpa using hv) hs hd)

end Sys2Proof.Machine
end

section
/-! SUPPORT. A rebase (R153): the QUEUED slots start anew, the transmissions are ABANDONED, and the route takes its opening values. -/

namespace Sys2Proof.Machine

/-! ## QUEUED slots started anew (R63) -/

/-- A change of one record changes its table entry alone. -/
theorem State.updRecord_records {s : State} (hs : Table.rising s.records = true) (n : Nat) (f : Record → Record) :
    (s.updRecord n f).records = s.records.map fun e => (e.1, if e.1 = n then f e.2 else e.2) := by
  have hfind (e : Nat × Record) (he : e ∈ s.records) : s.record? e.1 = some e.2 := Table.find_of_mem hs he
  unfold State.updRecord
  cases hx : s.record? n with
  | none =>
    refine ((List.map_congr_left fun e he => ?_).trans (List.map_id' _)).symm
    have hne : e.1 ≠ n := by
      rintro rfl
      rw [hfind e he] at hx
      cases hx
    rw [if_neg hne]
  | some x =>
    refine (Table.insert_of_find hs hx).trans (List.map_congr_left fun e he => ?_)
    by_cases hn : e.1 = n
    · have hsame := hfind e he
      rw [hn, hx, Option.some.injEq] at hsame
      rw [if_pos hn, if_pos hn, hsame]
    · rw [if_neg hn, if_neg hn]

/-- A pass that changes distinct records changes their table entries alone. -/
theorem State.updRecords_records {s : State} (hs : Table.rising s.records = true) {ns : List Nat} (hd : ns.Nodup)
    (f : Record → Record) :
    (s.each ns fun s n => s.updRecord n f).records = s.records.map fun e => (e.1, if e.1 ∈ ns then f e.2 else e.2) := by
  induction ns generalizing s with
  | nil => simp [State.each]
  | cons n ns ih =>
    obtain ⟨hn, hd⟩ := List.nodup_cons.mp hd
    have hfirst := State.updRecord_records hs n f
    refine (ih (s := s.updRecord n f) (by rw [hfirst]; exact Table.rising_mapValues hs _) hd).trans ?_
    rw [hfirst, List.map_map]
    refine List.map_congr_left fun e _ => ?_
    by_cases he : e.1 = n
    · simp [he, hn]
    · simp [he]

/-- A slot that starts anew, where it is on route `r`. -/
def Slot.repacked (sl : Slot) (r : RouteId) : Slot := if sl.route = r then { sl with packed := 0 } else sl

/-- A record whose slot on the route starts anew where it is QUEUED (R63). -/
def Record.repacked (x : Record) (r : RouteId) : Record :=
  if (x.slotState r).any (· == .queued) then { x with slots := x.slots.map (Slot.repacked · r) } else x

/-- The QUEUED slots of a route started anew. -/
def State.repack (s : State) (r : RouteId) : State :=
  s.each (s.recordsWith r (· == .queued)) fun s n => s.updRecord n fun x => x.updSlot r fun sl => { sl with packed := 0 }

section

variable {s : State} {r : RouteId}

theorem Slot.repacked_eq (sl : Slot) (r : RouteId) : sl.repacked r = { sl with packed := (sl.repacked r).packed } := by
  unfold Slot.repacked
  split <;> rfl

@[simp] theorem Slot.repacked_route (sl : Slot) (r : RouteId) : (sl.repacked r).route = sl.route := by rw [Slot.repacked_eq]

@[simp] theorem Slot.repacked_required (sl : Slot) (r : RouteId) : (sl.repacked r).required = sl.required := by
  rw [Slot.repacked_eq]

@[simp] theorem Slot.repacked_state (sl : Slot) (r : RouteId) : (sl.repacked r).state = sl.state := by rw [Slot.repacked_eq]

theorem State.repack_frame (s : State) (r : RouteId) : s.repack r = { s with records := (s.repack r).records } := by
  refine State.each_keeps (fun t => t = { s with records := t.records }) _ _ (fun t n _ ht => ?_) s rfl
  rw [State.updRecord_frame, ht]

theorem State.Released.repack {b : State} (h : b.Released s) : b.Released (s.repack r) :=
  State.Released.each (fun _ n h => h.updRecord n (f := fun x => x.updSlot r fun sl => { sl with packed := 0 }) fun _ => rfl) _ h

theorem State.repack_records (hs : Table.rising s.records = true) :
    (s.repack r).records = s.records.map fun e => (e.1, e.2.repacked r) := by
  refine (State.updRecords_records hs (State.nodup_recordsWith r _ hs) _).trans (List.map_congr_left fun e he => ?_)
  have hmem := State.mem_recordsWith (r := r) (· == .queued) hs (Table.find_of_mem hs he)
  unfold Record.repacked
  by_cases hq : (e.2.slotState r).any (· == .queued) = true
  · rw [if_pos hq, if_pos (hmem.mpr hq)]
    rfl
  · rw [if_neg hq, if_neg (mt hmem.mp hq)]

theorem State.record?_repack (hs : Table.rising s.records = true) (n : Nat) :
    (s.repack r).record? n = (s.record? n).map (Record.repacked · r) := by
  unfold State.record?
  rw [State.repack_records hs]
  exact Table.find_mapValues (fun e : Nat × Record => e.2.repacked r) n

theorem Record.map_route_repacked (x : Record) : (x.repacked r).slots.map (·.route) = x.slots.map (·.route) := by
  unfold Record.repacked
  split
  · rw [List.map_map]
    exact List.map_congr_left fun sl _ => sl.repacked_route r
  · rfl

/-! ## Notices do not read the packed offset -/

theorem settledAndOpen_repacked (l : List Slot) : settledAndOpen (l.map (Slot.repacked · r)) = settledAndOpen l := by
  unfold settledAndOpen
  rw [List.countP_map, List.countP_map]
  simp only [Function.comp_def, Slot.repacked_required, Slot.repacked_state]

theorem settledSet_repacked (l : List Slot) : settledSet (l.map (Slot.repacked · r)) = settledSet l := by
  unfold settledSet
  rw [List.foldl_map]
  simp only [Slot.repacked_route, Slot.repacked_state]

theorem Record.abandonNotice_repacked (x : Record) (p : SlotState → Bool) (up : Bool) :
    ((x.repacked r).abandonNotice r p up).map noticeSent = (x.abandonNotice r p up).map noticeSent := by
  by_cases hq : (x.slotState r).any (· == .queued) = true
  · have hx : x.repacked r = { x with slots := x.slots.map (Slot.repacked · r) } := if_pos hq
    have hslots : (x.repacked r).abandonedSlots r p = (x.abandonedSlots r p).map (Slot.repacked · r) := by
      rw [hx, Record.abandonedSlots, Record.abandonedSlots, List.map_map, List.map_map]
      refine List.map_congr_left fun sl _ => ?_
      by_cases hr : sl.route = r <;> by_cases hp : p sl.state = true <;> simp [Slot.repacked, hr, hp]
    have houtcome : (x.repacked r).abandonedOutcome r p = x.abandonedOutcome r p := by
      unfold Record.abandonedOutcome
      rw [hslots, settledAndOpen_repacked, hx]
      simp only [List.any_map, Function.comp_def, Slot.repacked_route, Slot.repacked_required]
    rw [Record.abandonNotice, Record.abandonNotice, houtcome, hslots, hx]
    simp only [List.any_map, Function.comp_def, Slot.repacked_route, Slot.repacked_state]
    split
    · rw [Option.map_map, Option.map_map]
      refine congrArg (fun f => Option.map f _) (funext fun v => ?_)
      simp only [Function.comp_apply, noticeSent, noticePayload, settledSet_repacked]
    · rfl
  · have hx : x.repacked r = x := if_neg hq
    rw [hx]

theorem State.notices_repack (hs : Table.rising s.records = true) (p : SlotState → Bool) (q : List OutFrame) :
    noticesOut q ((s.repack r).abandonDue r p) = noticesOut q (s.abandonDue r p) := by
  have hup : (s.repack r).clusterUp = s.clusterUp := by rw [State.repack_frame]
  refine noticesOut_congr ?_ q
  rw [State.abandonDue_eq, State.abandonDue_eq, State.repack_records hs, hup, List.filterMap_map, List.map_filterMap,
    List.map_filterMap]
  exact List.filterMap_congr fun e _ => Record.abandonNotice_repacked e.2 p s.clusterUp

end

end Sys2Proof.Machine
end

section
/-! SUPPORT. A rebase in its stages (R153), and the open probe that causes it. -/

namespace Sys2Proof.Machine

/-! ## The slots of a rebase (R63) -/

/-- A SENT or RECEIPTED slot, which a rebase ABANDONS. -/
def SlotState.transmitted (v : SlotState) : Bool := v == .sent || v == .receipted

theorem SlotState.terminal_of_transmitted (v : SlotState) (h : v.transmitted = true) : v.terminal = false := by
  cases v <;> simp [SlotState.transmitted, SlotState.terminal] at h ⊢

section

variable {s : State} {r : RouteId}

theorem State.rebaseSlots_eq (s : State) (r : RouteId) : s.rebaseSlots r = (s.repack r).abandonSlots r SlotState.transmitted := rfl

theorem State.rebaseSlots_kept (s : State) (r : RouteId) :
    (s.rebaseSlots r).routes = s.routes ∧ (s.rebaseSlots r).assemblies = s.assemblies ∧
      (s.rebaseSlots r).descFree = s.descFree ∧ (s.rebaseSlots r).latches = s.latches := by
  rw [State.rebaseSlots_eq, State.abandonSlots_routes, State.abandonSlots_assemblies, State.abandonSlots_descFree,
    State.abandonSlots_latches, State.repack_frame]
  exact ⟨rfl, rfl, rfl, rfl⟩

theorem State.RouteWork.rebaseSlots (s : State) (r : RouteId) : s.RouteWork (s.rebaseSlots r) := by
  refine State.RouteWork.trans (t := s.repack r) ?_ (State.RouteWork.abandonSlots _ r _)
  unfold State.RouteWork
  rw [State.repack_frame]

theorem State.counter_rebaseSlots {c : Counter} (hc : c.apartFromRecords) : (s.rebaseSlots r).counter c = s.counter c := by
  have hsame : (s.repack r).counters = s.counters := by rw [State.repack_frame]
  exact (State.counter_abandonSlots _ r _ hc).trans (State.counter_congr hsame c)

theorem State.slotsDistinct_repack (hs : Table.rising s.records = true)
    (hd : ∀ e ∈ s.records, (e.2.slots.map (·.route)).Nodup) :
    Table.rising (s.repack r).records = true ∧ ∀ e ∈ (s.repack r).records, (e.2.slots.map (·.route)).Nodup := by
  rw [State.repack_records hs]
  refine ⟨Table.rising_mapValues hs _, fun e he => ?_⟩
  obtain ⟨e', he', rfl⟩ := List.mem_map.mp he
  rw [Record.map_route_repacked]
  exact hd e' he'

theorem State.rebaseSlots_outQ (hs : Table.rising s.records = true) (hd : ∀ e ∈ s.records, (e.2.slots.map (·.route)).Nodup) :
    (s.rebaseSlots r).outQ = noticesOut s.outQ (s.abandonDue r fun st => st == .sent || st == .receipted) := by
  obtain ⟨hrising, hdistinct⟩ := State.slotsDistinct_repack (r := r) hs hd
  have hq : (s.repack r).outQ = s.outQ := by rw [State.repack_frame]
  rw [State.rebaseSlots_eq, State.abandonSlots_outQ SlotState.terminal_of_transmitted hrising hdistinct, hq,
    State.notices_repack hs]
  rfl

/-- The slots of a record that stands after the rebase: the QUEUED one starts anew, the transmitted one is ABANDONED. -/
theorem State.slots_rebaseSlots (hs : Table.rising s.records = true) {n : Nat} {y z : Record} (hy : s.record? n = some y)
    (hd : (y.slots.map (·.route)).Nodup) (hz : (s.rebaseSlots r).record? n = some z) :
    z.slots.map (fun sl => (sl.route, sl.state, sl.packed)) =
      y.slots.map fun sl =>
        if sl.route ≠ r then (sl.route, sl.state, sl.packed)
        else if sl.state = .queued then (sl.route, .queued, 0)
        else if sl.state = .sent ∨ sl.state = .receipted then (sl.route, .abandoned, sl.packed)
        else (sl.route, sl.state, sl.packed) := by
  have hrising : Table.rising (s.repack r).records = true := by
    rw [State.repack_records hs]
    exact Table.rising_mapValues hs _
  have hy' : (s.repack r).record? n = some (y.repacked r) := by rw [State.record?_repack hs, hy, Option.map_some]
  rw [State.slots_abandonSlots SlotState.terminal_of_transmitted hrising hy' (by rwa [Record.map_route_repacked]) hz]
  by_cases hq : (y.slotState r).any (· == .queued) = true
  · obtain ⟨g, hg, hstate⟩ := Record.any_slotState.mp hq
    have hrepacked : (y.repacked r).slots = y.slots.map (Slot.repacked · r) := by rw [Record.repacked, if_pos hq]
    rw [Record.abandonedSlots, hrepacked, List.map_map, List.map_map]
    refine List.map_congr_left fun sl hsl => ?_
    by_cases hr : sl.route = r
    · have hqueued : sl.state = .queued := by
        rw [Record.eq_of_slotOn hd hg hsl hr]
        simpa using hstate
      simp [Slot.repacked, hr, hqueued, SlotState.transmitted]
    · simp [hr, Slot.repacked]
  · have hrepacked : y.repacked r = y := if_neg hq
    rw [hrepacked, Record.abandonedSlots, List.map_map]
    refine List.map_congr_left fun sl hsl => ?_
    by_cases hr : sl.route = r
    · have hqueued : sl.state ≠ .queued := by
        rw [Bool.not_eq_true, Record.any_slotState_eq hd, List.any_eq_false] at hq
        simpa [hr] using hq sl hsl
      by_cases hsent : sl.state = .sent ∨ sl.state = .receipted
      · have htransmitted : sl.state.transmitted = true := by simpa [SlotState.transmitted] using hsent
        simp [hr, hqueued, hsent, htransmitted]
      · have htransmitted : sl.state.transmitted = false := by
          simpa [SlotState.transmitted] using not_or.mp hsent
        simp [hr, hqueued, hsent, htransmitted]
    · simp [hr]

/-! ## The opening values (R126, R136) -/

theorem State.updRoute_updRoute (s : State) (r : RouteId) (f g : Route → Route) :
    (s.updRoute r f).updRoute r g = s.updRoute r fun x => g (f x) := by
  rw [State.updRoute, State.route_updRoute_self]
  exact congrArg (fun rs => { s with routes := rs }) (Vector.set_set _ r.isLt)

/-- A route with the opening values; a regulator in TRACK takes the state of a route in service to ACQUIRE with it (R148). -/
def Route.opened (x : Route) : Route :=
  { x with
    ctl := if x.pace.regulator = .track ∧ (x.ctl.state = .acquire ∨ x.ctl.state = .track) then { x.ctl with state := .acquire }
      else x.ctl
    pace := openingPace x.cfg }

theorem State.updRoute_congr (s : State) (r : RouteId) {f g : Route → Route} (h : f (s.route r) = g (s.route r)) :
    s.updRoute r f = s.updRoute r g := congrArg (s.setRoute r) h

theorem State.takeOpening_eq (s : State) (r : RouteId) :
    s.takeOpening r = (if (s.route r).pace.regulator = .track then s.latch .rateLock else s).updRoute r Route.opened := by
  unfold State.takeOpening State.setRegulator
  cases hg : (s.route r).pace.regulator with
  | acquire =>
    rw [if_pos rfl, if_neg (by simp)]
    exact State.updRoute_congr s r (by simp [Route.opened, hg])
  | track =>
    rw [if_neg (by simp), if_pos rfl]
    cases hc : (s.route r).ctl.state <;>
      simp only [State.updPace, State.updCtl, State.updRoute_updRoute] <;>
      exact State.updRoute_congr _ r (by simp [Route.opened, hg, hc])

section

variable (s : State) (r : RouteId)

@[simp] theorem State.takeOpening_records : (s.takeOpening r).records = s.records := by
  rw [State.takeOpening_eq, State.updRoute_records]
  split <;> rfl

@[simp] theorem State.takeOpening_pool : (s.takeOpening r).pool = s.pool := by
  rw [State.takeOpening_eq, State.updRoute_pool]
  split <;> rfl

@[simp] theorem State.takeOpening_assemblies : (s.takeOpening r).assemblies = s.assemblies := by
  rw [State.takeOpening_eq, State.updRoute_assemblies]
  split <;> rfl

@[simp] theorem State.takeOpening_descFree : (s.takeOpening r).descFree = s.descFree := by
  rw [State.takeOpening_eq, State.updRoute_descFree]
  split <;> rfl

@[simp] theorem State.takeOpening_outQ : (s.takeOpening r).outQ = s.outQ := by
  rw [State.takeOpening_eq, State.updRoute_outQ]
  split <;> rfl

@[simp] theorem State.takeOpening_counters : (s.takeOpening r).counters = s.counters := by
  rw [State.takeOpening_eq, State.updRoute_counters]
  split <;> rfl

theorem State.takeOpening_latches :
    (s.takeOpening r).latches = s.latches ||| if (s.route r).pace.regulator = .track then 0x0004 else 0 := by
  rw [State.takeOpening_eq, State.updRoute_latches]
  split
  · rfl
  · exact BitVec.or_zero.symm

theorem State.route_takeOpening : (s.takeOpening r).route r = (s.route r).opened := by
  rw [State.takeOpening_eq, State.route_updRoute_self]
  split <;> rfl

theorem State.route_takeOpening_of_ne {q : RouteId} (hq : q ≠ r) : (s.takeOpening r).route q = s.route q := by
  rw [State.takeOpening_eq, State.route_updRoute_of_ne _ _ hq]
  split <;> rfl

end

theorem State.RouteWork.takeOpening {b s : State} (h : b.RouteWork s) (r : RouteId) : b.RouteWork (s.takeOpening r) := by
  rw [State.takeOpening_eq]
  split
  · exact (h.latch _).updRoute r _
  · exact h.updRoute r _

end

end Sys2Proof.Machine
end

section
/-! SUPPORT. The rebase of a route by an open probe of a new life (R153). -/

namespace Sys2Proof.Machine

/-! ## The stages of a rebase -/

/-- A route as the Route Controller leaves it at a rebase to the remote life `l`: ACQUIRE with a reply due. -/
def Route.rebased (l : Word) (x : Route) : Route :=
  { x with
    ctl := { x.ctl with
             state := .acquire, remoteLife := some l, echo := l, recovered := false, cleared := false, probeTimer := none
             marker := none }
    tx := { x.tx with replyDue := true, probeDue := false } }

section

variable (s : State) (r : RouteId) (l : Word)

/-- The rebase up to its discards. -/
def State.rebaseWork : State := ((s.rebaseSlots r).discardBuffers r).discardWindow r

/-- The rebase up to the controller's new values. -/
def State.rebaseLocal : State := (((s.rebaseWork r).takeOpening r).inboundReset r).updRoute r (Route.rebased l)

theorem State.rebase_eq :
    s.rebase r l =
      if (s.route r).ctl.state = .impaired then
        (((s.rebaseLocal r l).latch .remoteRestart).countRoute r .rebases).latch .routeChange
      else ((s.rebaseLocal r l).latch .remoteRestart).countRoute r .rebases := by
  unfold State.rebase State.rebaseLocal State.rebaseWork
  rfl

theorem State.rebaseWork_discards : State.Discards r (s.route r).tx.window.length (s.rebaseSlots r) (s.rebaseWork r) := by
  have hwindow : (((s.rebaseSlots r).discardBuffers r).route r).tx = (s.route r).tx := by
    rw [State.route_discardBuffers, State.route_congr (s.rebaseSlots_kept r).1]
  have h := (State.Discards.discardBuffers (s.rebaseSlots r) r).trans (State.Discards.discardWindow _ r)
  rwa [hwindow, Nat.zero_add] at h

theorem State.rebase_work : s.RouteWork (s.rebase r l) := by
  have hlocal : s.RouteWork (s.rebaseLocal r l) :=
    State.RouteWork.updRoute (State.RouteWork.inboundReset (State.RouteWork.takeOpening
      ((State.RouteWork.rebaseSlots s r).trans (State.RouteWork.discards (s.rebaseWork_discards r))) r) r) r _
  rw [State.rebase_eq]
  split
  · exact ((hlocal.latch _).countRoute r _).latch _
  · exact (hlocal.latch _).countRoute r _

theorem State.rebase_descFree : (s.rebase r l).descFree = s.descFree + (s.route r).tx.window.length := by
  obtain ⟨_, _, hkept, _⟩ := s.rebaseSlots_kept r
  rw [State.rebase_eq, ← hkept, ← (s.rebaseWork_discards r).descFree]
  split <;> simp [State.rebaseLocal]

theorem State.rebase_latches :
    (s.rebase r l).latches = s.latches ||| 0x0400 ||| (if (s.route r).pace.regulator = .track then 0x0004 else 0) |||
      (if (s.route r).ctl.state = .impaired then 0x0001 else 0) := by
  obtain ⟨hroutes, _, _, hkept⟩ := s.rebaseSlots_kept r
  have hpace : ((s.rebaseWork r).route r).pace = (s.route r).pace := by
    unfold State.rebaseWork
    rw [State.route_discardWindow, State.route_discardBuffers, State.route_congr hroutes]
  have hlocal : (s.rebaseLocal r l).latches = s.latches ||| if (s.route r).pace.regulator = .track then 0x0004 else 0 := by
    rw [State.rebaseLocal, State.updRoute_latches, State.inboundReset_latches, State.takeOpening_latches, hpace,
      (s.rebaseWork_discards r).latches, hkept]
  have hrestart : EventClass.remoteRestart.bit = 0x0400 := rfl
  have hchange : EventClass.routeChange.bit = 0x0001 := rfl
  have hswap (a b c : BitVec 13) : a ||| b ||| c = a ||| c ||| b := by rw [BitVec.or_assoc, BitVec.or_comm b, ← BitVec.or_assoc]
  rw [State.rebase_eq, hswap s.latches 0x0400, ← hlocal, ← hrestart, ← hchange]
  split
  · rfl
  · exact BitVec.or_zero.symm

theorem State.rebase_outQ : (s.rebase r l).outQ = (s.rebaseSlots r).outQ := by
  rw [State.rebase_eq, ← (s.rebaseWork_discards r).outQ]
  split <;> simp [State.rebaseLocal]

theorem State.rebase_records : (s.rebase r l).records = (s.rebaseWork r).records := by
  rw [State.rebase_eq]
  split <;> simp [State.rebaseLocal]

theorem State.rebase_assemblies :
    (s.rebase r l).assemblies = (((s.rebaseWork r).takeOpening r).inboundReset r).assemblies := by
  rw [State.rebase_eq]
  split <;> simp [State.rebaseLocal]

theorem State.rebase_pool : (s.rebase r l).pool = (((s.rebaseWork r).takeOpening r).inboundReset r).pool := by
  rw [State.rebase_eq]
  split <;> simp [State.rebaseLocal]

/-- The rebase is counted once. -/
theorem State.rebase_counted : s.counted (s.rebase r l) 1 (.route r .rebases) := by
  obtain ⟨u, hu⟩ : ∃ u, u = (s.rebaseLocal r l).latch .remoteRestart := ⟨_, rfl⟩
  have hbefore : u.counter (.route r .rebases) = s.counter (.route r .rebases) := by
    have hcounters : u.counters = (s.rebaseSlots r).counters := by
      rw [← (s.rebaseWork_discards r).counters, hu]
      simp [State.rebaseLocal]
    exact (State.counter_congr hcounters _).trans (State.counter_rebaseSlots (Counter.route_apartFromRecords r _))
  have hafter : (s.rebase r l).counters = (u.countRoute r .rebases).counters := by
    rw [State.rebase_eq, ← hu]
    split
    · exact State.latch_counters _ _
    · rfl
  intro _
  rw [State.counter_congr hafter, ← hbefore]
  exact State.counter_count_self u _

theorem State.route_rebase (q : RouteId) : (s.rebase r l).route q = (s.rebaseLocal r l).route q := by
  rw [State.rebase_eq]
  split <;> simp only [State.route_latch, State.route_countRoute]

theorem State.route_rebase_of_ne {q : RouteId} (hq : q ≠ r) : (s.rebase r l).route q = s.route q := by
  rw [State.route_rebase, State.rebaseLocal, State.route_updRoute_of_ne _ _ hq, State.route_inboundReset_of_ne _ _ hq,
    State.route_takeOpening_of_ne _ _ hq, (s.rebaseWork_discards r).others q hq, State.route_congr (s.rebaseSlots_kept r).1]

theorem State.route_rebase_self :
    (s.rebase r l).route r =
      let x := s.route r
      { x with
        ctl := { x.ctl with
                 state := .acquire, remoteLife := some l, echo := l, recovered := false, cleared := false, probeTimer := none
                 marker := none }
        pace := openingPace x.cfg
        tx := { Transmit.reset with receiptDue := x.tx.receiptDue, replyDue := true }
        bld := { x.bld with fill := .empty, fillSpan := Span.empty, ready := none, marker := none, holdStart := none }
        inb := Inbound.reset } := by
  have hwork : (s.rebaseWork r).route r =
      { s.route r with
        bld := { (s.route r).bld with
                 fill := .empty, fillSpan := Span.empty, ready := none, marker := none, holdStart := none }
        tx := { Transmit.reset with
                receiptDue := (s.route r).tx.receiptDue
                probeDue := (s.route r).tx.probeDue
                replyDue := (s.route r).tx.replyDue } } := by
    unfold State.rebaseWork
    rw [State.route_discardWindow, State.route_discardBuffers, State.route_congr (s.rebaseSlots_kept r).1]
  rw [State.route_rebase, State.rebaseLocal, State.route_updRoute_self, State.route_inboundReset, State.route_takeOpening, hwork]
  unfold Route.opened Route.rebased
  dsimp only
  split <;> rfl

theorem State.rebase_inboundDropped {t : State} (hr : t.records = (s.rebase r l).records)
    (ha : t.assemblies = (s.rebase r l).assemblies) (hp : t.pool = (s.rebase r l).pool) : s.inboundDropped t r := by
  obtain ⟨_, hkept, _, _⟩ := s.rebaseSlots_kept r
  have hslots : s.Released (s.rebaseSlots r) := ((State.Released.refl s).repack).abandonSlots r _
  have hwork := (s.rebaseWork_discards r).released s hslots
  exact State.inboundDropped_of_reset (hwork.congr (State.takeOpening_records _ r) (State.takeOpening_pool _ r))
    ((State.takeOpening_assemblies _ r).trans ((s.rebaseWork_discards r).assemblies.trans hkept))
    (hr.trans ((s.rebase_records r l).trans (State.takeOpening_records _ r).symm)) (ha.trans (s.rebase_assemblies r l))
    (hp.trans (s.rebase_pool r l))

end

/-! ## The open probe of a new life (R146, R153) -/

theorem exec_probe_of_rebase {s : State} {f : Frame} {p : ProbeFrame} {r : RouteId} (ht : s.takesKind .longhaul 0x23 f = true)
    (hp : readProbe f.payload = some p) (hr : s.routeOfRegion p.src = some r) (hd : p.dst = s.settings.localRegion.toNat)
    (hopen : p.openFlag = true) (hc : (s.route r).ctl.state ≠ .closed) (ho : (s.route r).ctl.state ≠ .opening)
    (hl : (s.route r).ctl.remoteLife ≠ some p.life) :
    exec (.probe f) s = .next (s.alertFrom (s.rebase r p.life)) := by
  have htake : s.takeProbe r p = s.rebase r p.life := by
    unfold State.takeProbe
    dsimp only
    rw [hopen, decide_eq_false ho, decide_eq_false hl]
  have harrives : s.probeArrives f State.takeProbe = s.rebase r p.life := by
    unfold State.probeArrives
    rw [hp]
    dsimp only
    rw [hr]
    dsimp only
    rw [if_neg (not_not_intro hd), if_neg hc, htake]
  change execProbe f s = _
  unfold execProbe
  rw [if_pos ht, harrives]

/-- Settles O32: the rebase is its stages in turn, each with what it leaves unchanged, and the alert comes last. -/
theorem openProbeRebases : Obligations.OpenProbeRebases := by
  intro s f p r x ht hp hr hd hopen hc ho hl
  obtain ⟨t, htdef⟩ : ∃ t, t = s.alertFrom (s.rebase r p.life) := ⟨_, rfl⟩
  have hframe : t = { s.rebase r p.life with outQ := t.outQ, counters := t.counters } := by
    rw [htdef, State.alertFrom_frame]
  have hrecords : t.records = (s.rebase r p.life).records := by rw [hframe]
  have hroutes : t.routes = (s.rebase r p.life).routes := by rw [hframe]
  have hlatches : t.latches = (s.rebase r p.life).latches := by rw [hframe]
  refine ⟨t, (exec_probe_of_rebase ht hp hr hd hopen hc ho hl).trans (by rw [htdef]), ?_, fun q hq => ?_, ?_,
    fun n y z hs hy hdist hz => ?_, s.rebase_inboundDropped r p.life hrecords (by rw [hframe]) (by rw [hframe]),
    fun hs hdist => ?_, ?_⟩
  · have hwork := s.rebase_work r p.life
    rw [← s.rebase_descFree r p.life, ← s.rebase_latches r p.life]
    unfold State.RouteWork at hwork
    rw [hframe, hwork]
  · exact (State.route_congr hroutes q).trans (s.route_rebase_of_ne r p.life hq)
  · exact (State.route_congr hroutes r).trans (s.route_rebase_self r p.life)
  · rw [State.record?_congr (hrecords.trans (s.rebase_records r p.life))] at hz
    obtain ⟨w, hw, hslots⟩ := (s.rebaseWork_discards r).slots _ (State.slotsKept.refl _) n z hz
    rw [hslots]
    exact State.slots_rebaseSlots hs hy hdist hw
  · have halert : alertedOut s t (s.rebase r p.life).outQ = alertedOut s (s.rebase r p.life) (s.rebase r p.life).outQ :=
      alertedOut_congr hlatches (by rw [hframe]) (by rw [hframe]) (by rw [hframe]) _
    have hnotices : (s.rebase r p.life).outQ = noticesOut s.outQ (s.abandonDue r fun st => st == .sent || st == .receipted) :=
      (s.rebase_outQ r p.life).trans (State.rebaseSlots_outQ hs hdist)
    refine Eq.trans ?_ (congrArg (alertedOut s t) hnotices)
    rw [halert, ← State.alertFrom_outQ, htdef]
  · intro hbound
    refine Eq.trans ?_ (s.rebase_counted r p.life hbound)
    rw [htdef]
    exact State.counter_alertFrom_route s (s.rebase r p.life) r .rebases

end Sys2Proof.Machine
end
